-- ==== Sys2Proof/Word.lean ====
section
/-! DEFINITION. The bit-vector types of the hardware: what the spec lays out as bits (10_state.md R20, 30_encoding.md R70 to R82). -/

namespace Sys2Proof

/-- A byte, 8 bits (R10). -/
abbrev Byte := BitVec 8

/-- The event word `EW` of one clock edge, 12 bits (R70). -/
abbrev EventWord := BitVec 12

/-- The angle code, `ANGLE_W` = 14 bits (R7, R76). -/
abbrev AngleCode := BitVec 14

/-- The raw field of a sensor frame, `RAW_W` = 16 bits (R7, R75). -/
abbrev RawField := BitVec 16

/-- A coil pattern: bit 0 is PORT1, bit 1 PORT2, bit 2 PORT3, bit 3 PORT4 (R23, R80). -/
abbrev CoilBits := BitVec 4

/-- A step count, `STEPS_W` = 5 bits (R7, R82). -/
abbrev StepCount := BitVec 5

end Sys2Proof
end

