-- ==== Sys2Proof/Config.lean ====
section
/-! DEFINITION. The static parameters of 00_scope.md R7, each with the value this hardware takes.
No rule of the spec leaves a value free, so no opaque constant stands here.
`SENSOR_DIV`, `TICK_HZ` and `CLK_HZ` occur in no rule of the hardware (R7, R107, R212) and are not parameters of the model. -/

namespace Sys2Proof

/-- `FRAME_LEN`: bytes in one sensor frame (R7). -/
abbrev Config.frameLen : Nat := 10

/-- `MOTOR_DIV`: raw ticks per motor step (R7, R107). It is at least 1 (R106). -/
abbrev Config.motorDiv : Nat := 4

/-- `COIL_PHASES`: entries of each coil table (R7). -/
abbrev Config.coilPhases : Nat := 4

/-- The default of `TOTAL_W`, the bits of `total_steps` (R7). `TOTAL_W` itself is OPEN and an argument of the model: every
`total_steps` carries its width, and only `State.reset` takes this default (notes/assumptions/6.md, DESIGN CHOICE). -/
abbrev Config.totalWDefault : Nat := 32

/-- `STEP_CODE`: 11.25 degrees in codes (R7, R130). -/
abbrev Config.stepCode : Nat := 512

/-- `HALF_CODE`: 180 degrees in codes (R7, R130). -/
abbrev Config.halfCode : Nat := 8192

/-- The upper end of the enabled range, 348.75 degrees in codes (R130, R131). -/
abbrev Config.topCode : Nat := 15872

/-- `DEG_PER_CODE`: the weight of one angle code in degrees (R7, R119). -/
def Config.degPerCode : ℚ := 3600 / 163840

/-- `STEP_ANGLE`: 11.25 degrees (R7, R130). -/
def Config.stepAngle : ℚ := 45 / 4

end Sys2Proof
end

