-- ==== Sys2Proof/Syntax.lean ====
section
/-! DEFINITION. The operations of spec/opcode_table.json, one constructor per row, and the set of operations of one clock edge. -/

namespace Sys2Proof

/-- `direction` (R79): clockwise or counter-clockwise. -/
inductive Direction where
  | cw
  | ccw
  deriving DecidableEq, Repr

/-- One constructor per row of spec/opcode_table.json. The operands are those the operation rules name: `rx_byte`
(`EW[7:0]`, R112) for a POLL_END and its byte-storing variants, `A` (14 bits) for a case of the planner. -/
inductive Instr where
  /-- RESET (R160). -/
  | reset
  /-- NOP (R161). -/
  | nop
  /-- TICK (R104), the group of GATE.COUNT and GATE.FIRE. -/
  | tick
  /-- GATE.COUNT (R101). -/
  | gateCount
  /-- GATE.FIRE (R102). -/
  | gateFire
  /-- MSTEP.HOLD (R147), a suboperation of GATE.FIRE. -/
  | mstepHold
  /-- MSTEP.STEP (R148), a suboperation of GATE.FIRE. -/
  | mstepStep
  /-- MSTEP.IDLE (R149), a suboperation of GATE.FIRE. -/
  | mstepIdle
  /-- POLL_BEGIN (R111). -/
  | pollBegin
  /-- POLL_END (R112), the group of the four LINK operations. -/
  | pollEnd (rx : Byte)
  /-- LINK.SYNC0 (R113). -/
  | linkSync0 (rx : Byte)
  /-- LINK.SYNC1 (R114). -/
  | linkSync1 (rx : Byte)
  /-- LINK.DATA (R115). -/
  | linkData (rx : Byte)
  /-- LINK.FINAL (R116): no operand, `rx_byte` is ignored. -/
  | linkFinal
  /-- PLAN.NONE (R136), a case of the planner on the code `A`. -/
  | planNone (A : AngleCode)
  /-- PLAN.CW (R138). -/
  | planCw (A : AngleCode)
  /-- PLAN.CCW (R139). -/
  | planCcw (A : AngleCode)
  deriving DecidableEq, Repr

/-- The operations of one edge: at most one per block (R71), so one operation, or one of the tick gate together with one of
the sensor frame parser. The empty set of R71 (5) is the single operation NOP. -/
inductive EdgeSet where
  | single (i : Instr)
  | pair (gate link : Instr)
  deriving DecidableEq, Repr

/-- The members of an edge's set. -/
def EdgeSet.ops : EdgeSet → List Instr
  | .single i => [i]
  | .pair g l => [g, l]

/-- The two formats of spec/opcode_table.json: an event word (format EW, R70) or an angle code (format A14). -/
inductive Code where
  | event (w : EventWord)
  | angle (w : AngleCode)
  deriving DecidableEq, Repr

end Sys2Proof
end

