-- ==== Sys2Proof/WellFormed.lean ====
section
/-! DEFINITION. Which terms of `Instr` are operations of the hardware: a case of the planner carries a code of its own range
(R136, R138, R139); every byte is a legal `rx_byte` (R83). -/

namespace Sys2Proof

/-- PLAN.NONE's range (R136): `A <= 511` or `A >= 15873`. -/
def inDeadBand (A : AngleCode) : Bool :=
  decide (A.toNat < Config.stepCode) || decide (Config.topCode < A.toNat)

/-- PLAN.CW's range (R138): `512 <= A <= 8192`. -/
def inCwRange (A : AngleCode) : Bool :=
  decide (Config.stepCode ≤ A.toNat) && decide (A.toNat ≤ Config.halfCode)

/-- PLAN.CCW's range (R139): `8193 <= A <= 15872`. -/
def inCcwRange (A : AngleCode) : Bool :=
  decide (Config.halfCode < A.toNat) && decide (A.toNat ≤ Config.topCode)

/-- The operand checks of every operation. -/
def wellFormed : Instr → Bool
  | .reset => true
  | .nop => true
  | .tick => true
  | .gateCount => true
  | .gateFire => true
  | .mstepHold => true
  | .mstepStep => true
  | .mstepIdle => true
  | .pollBegin => true
  | .pollEnd _ => true
  | .linkSync0 _ => true
  | .linkSync1 _ => true
  | .linkData _ => true
  | .linkFinal => true
  | .planNone A => inDeadBand A
  | .planCw A => inCwRange A
  | .planCcw A => inCcwRange A

/-- A set of operations that rule R71 can give with this `busy`: RESET or NOP alone, TICK alone, or a poll operation that
matches `busy`, alone or with TICK. -/
def EdgeSet.wellFormed (busy : Bool) : EdgeSet → Bool
  | .single .reset => true
  | .single .nop => true
  | .single .tick => true
  | .single .pollBegin => !busy
  | .single (.pollEnd _) => busy
  | .single _ => false
  | .pair .tick .pollBegin => !busy
  | .pair .tick (.pollEnd _) => busy
  | .pair _ _ => false

end Sys2Proof
end

