-- ==== Sys2Proof/Decode.lean ====
section
/-! DEFINITION. Decoding (30_encoding.md R70 to R73, 42_step_planner.md) and, after it, the encoder and the opcode table's rows.

An operation is not selected by its word alone: the word selects an event (R71, with `busy`), and the registers select the
event's variant (R72). So decoding stands here in stages, each a total function of plain values; Machine/Select.lean
feeds the registers to them. -/

namespace Sys2Proof

/-! ## The fields of the event word (R70) -/

/-- `rst = EW[11]`. -/
def rstBit (ew : EventWord) : Bool := ew.getLsbD 11

/-- `tick = EW[10]`. -/
def tickBit (ew : EventWord) : Bool := ew.getLsbD 10

/-- `poll_begin = EW[9]`. -/
def pollBeginBit (ew : EventWord) : Bool := ew.getLsbD 9

/-- `poll_end = EW[8]`. -/
def pollEndBit (ew : EventWord) : Bool := ew.getLsbD 8

/-- `rx_byte = EW[7:0]`. -/
def rxByte (ew : EventWord) : Byte := ew.extractLsb' 0 8

/-! ## From an event word to the operations of its edge (R71) -/

/-- The parser's event of a word without `rst`: the strobe that matches `busy` (R71 (3) and (4)); the other one is ignored
(R73, R120). -/
def pollOp (busy : Bool) (ew : EventWord) : Option Instr :=
  if busy then
    if pollEndBit ew then some (.pollEnd (rxByte ew)) else none
  else
    if pollBeginBit ew then some .pollBegin else none

/-- R71: the set of operations of an edge. -/
def eventOps (busy : Bool) (ew : EventWord) : EdgeSet :=
  if rstBit ew then .single .reset
  else
    match tickBit ew, pollOp busy ew with
    | true, some p => .pair .tick p
    | true, none => .single .tick
    | false, some p => .single p
    | false, none => .single .nop

/-! ## Variants selected by the registers (R72) -/

/-- TICK's variant: GATE.FIRE on the tick that completes a group, else GATE.COUNT. -/
def gateVariant (gateCnt : Fin Config.motorDiv) : Instr :=
  if gateCnt.val + 1 = Config.motorDiv then .gateFire else .gateCount

/-- POLL_END's variant by the frame position. -/
def linkVariant (k : Fin (Config.frameLen + 1)) (rx : Byte) : Instr :=
  if k.val = 0 then .linkSync0 rx
  else if k.val = 1 then .linkSync1 rx
  else if k.val < Config.frameLen then .linkData rx
  else .linkFinal

/-- The motor step that GATE.FIRE carries, in the decision order of R150. -/
def motorVariant (planEn : Bool) (budget : StepCount) : Instr :=
  if !planEn then .mstepHold
  else if budget = 0 then .mstepIdle
  else .mstepStep

/-- The planner's case on the code `A` (R136, R138, R139; format A14): total and exclusive on all 16384 codes. -/
def planVariant (A : AngleCode) : Instr :=
  if inDeadBand A then .planNone A
  else if A.toNat ≤ Config.halfCode then .planCw A
  else .planCcw A

/-! ## A word on its own, as a row of the opcode table gives it -/

/-- Why a number is not the word of one operation. -/
inductive DecodeReject where
  /-- The number needs more than the 12 bits of an event word (R70, R84). -/
  | notAnEventWord
  /-- The word raises several strobes without `rst`: its meaning is a set (R71), not one operation. -/
  | severalStrobes
  deriving DecidableEq, Repr

/-- The one event an event word names when no register is known: RESET, NOP, TICK, POLL_BEGIN or POLL_END. The rows of the
table that share a word with TICK or POLL_END are told apart by registers only (R72; notes/assumptions/5.md). -/
def decodeEvent (ew : EventWord) : Except DecodeReject Instr :=
  if rstBit ew then .ok .reset
  else
    match tickBit ew, pollBeginBit ew, pollEndBit ew with
    | false, false, false => .ok .nop
    | true, false, false => .ok .tick
    | false, true, false => .ok .pollBegin
    | false, false, true => .ok (.pollEnd (rxByte ew))
    | _, _, _ => .error .severalStrobes

/-- A number as an event word: 12 bits, no more. -/
def decodeNumber (w : Nat) : Except DecodeReject Instr :=
  if w < 4096 then decodeEvent (BitVec.ofNat 12 w) else .error .notAnEventWord

/-- The event the decoder reads from a table row's word: `w` in `nbits` bits, every bit above them 0. -/
def decodeTableWord (nbits w : Nat) : Option Instr :=
  match decodeNumber (w % 2 ^ nbits) with
  | .ok i => some i
  | .error _ => none

/-! ## The encoder -/

/-- The word of an operation: the table's match bits, `rx_byte` in `EW[7:0]` where it is an operand (R70, R85), the code itself
in format A14. Bits the operation ignores are 0. -/
def encode : Instr → Code
  | .reset => .event 0x800#12
  | .nop => .event 0x000#12
  | .tick => .event 0x400#12
  | .gateCount => .event 0x400#12
  | .gateFire => .event 0x400#12
  | .mstepHold => .event 0x400#12
  | .mstepStep => .event 0x400#12
  | .mstepIdle => .event 0x400#12
  | .pollBegin => .event 0x200#12
  | .pollEnd rx => .event (0x1#4 ++ rx)
  | .linkSync0 rx => .event (0x1#4 ++ rx)
  | .linkSync1 rx => .event (0x1#4 ++ rx)
  | .linkData rx => .event (0x1#4 ++ rx)
  | .linkFinal => .event 0x100#12
  | .planNone A => .angle A
  | .planCw A => .angle A
  | .planCcw A => .angle A

/-- The word of an edge's set: the strobes of its members together (R85: `TICK+PB` is 0x600, `TICK+PE b` is 0x500 + b). -/
def encodeSet : EdgeSet → Code
  | .single i => encode i
  | .pair g l =>
    match encode g, encode l with
    | .event a, .event b => .event (a ||| b)
    | c, _ => c

/-! ## The rows of the opcode table -/

/-- The match number of the operation's row in spec/opcode_table.json. -/
def rowMatch : Instr → Nat
  | .reset => 0x800
  | .nop => 0x000
  | .tick => 0x400
  | .gateCount => 0x400
  | .gateFire => 0x400
  | .mstepHold => 0x400
  | .mstepStep => 0x400
  | .mstepIdle => 0x400
  | .pollBegin => 0x200
  | .pollEnd _ => 0x100
  | .linkSync0 _ => 0x100
  | .linkSync1 _ => 0x100
  | .linkData _ => 0x100
  | .linkFinal => 0x100
  | .planNone _ => 0x0000
  | .planCw _ => 0x0000
  | .planCcw _ => 0x0000

/-- The mask of the operation's row in spec/opcode_table.json. -/
def rowMask : Instr → Nat
  | .reset => 0x800
  | .nop => 0xF00
  | .tick => 0xC00
  | .gateCount => 0xC00
  | .gateFire => 0xC00
  | .mstepHold => 0xC00
  | .mstepStep => 0xC00
  | .mstepIdle => 0xC00
  | .pollBegin => 0xA00
  | .pollEnd _ => 0x900
  | .linkSync0 _ => 0x900
  | .linkSync1 _ => 0x900
  | .linkData _ => 0x900
  | .linkFinal => 0x900
  | .planNone _ => 0x0000
  | .planCw _ => 0x0000
  | .planCcw _ => 0x0000

/-- A word as a number. -/
def Code.toNat : Code → Nat
  | .event w => w.toNat
  | .angle w => w.toNat

/-- The word carries the bits its row of the table fixes. -/
def fitsRow (i : Instr) (c : Code) : Bool := c.toNat &&& rowMask i == rowMatch i

end Sys2Proof
end

