-- ==== Sys2Proof/Machine/State.lean ====
section
/-! DEFINITION. The state of the machine: the nine registers of 10_state.md R20, and two fields of the MODEL's own (the event
words still to come, and what the output ports without a register showed), which no operation's registers depend on. -/

namespace Sys2Proof.Machine

open Sys2Proof

/-- The frame buffer's bytes as (index, byte) cells. Canonical form: indices strictly rising and below 10, no cell equal to
what an unlisted index reads as (`Memory.wf` in Machine/Operands.lean). -/
abbrev Memory := List Host.Cell

/-- What the register `coil` can hold: no coil energized, or the two ports of one of the four patterns (R35 (e), R80). The other
values of its four bits are unreachable and get no meaning (R83), so they cannot be written down. `Coil.bits` gives the four
bits. -/
inductive Coil where
  /-- No coil energized: the value after reset (R23). -/
  | off
  /-- PORT1 and PORT2. -/
  | ports12
  /-- PORT2 and PORT3. -/
  | ports23
  /-- PORT3 and PORT4. -/
  | ports34
  /-- PORT1 and PORT4. -/
  | ports14
  deriving DecidableEq, Repr

/-- The register `total_steps` with its width: `TOTAL_W` is OPEN (R7), so it is an argument of the model, fixed by the state a run
begins in and kept by every operation (notes/assumptions/6.md). -/
structure StepCounter where
  width : Nat
  count : BitVec width
  deriving DecidableEq, Repr

/-- The nine registers of R20: all that persists from one clock edge to the next. `k`, `gate_cnt` and `coil` are of types that
hold their reachable values only, as R83 asks, so the others cannot be written down. -/
structure Regs where
  /-- Counter of the motor tick gate, 0 to `MOTOR_DIV - 1` (R21). -/
  gate_cnt : Fin Config.motorDiv
  /-- Index into the coil tables (R22). -/
  coil_step : Fin Config.coilPhases
  /-- The coil ports: bit 0 is PORT1, a 1 energizes (R23). -/
  coil : Coil
  /-- Executed motor steps, modulo `2^TOTAL_W` (R24). -/
  total_steps : StepCounter
  /-- Frame position, 0 to 10 (R25). -/
  k : Fin (Config.frameLen + 1)
  /-- Between a POLL_BEGIN and its POLL_END (R26). -/
  busy : Bool
  /-- Level of the sensor-select line: `false` selects the sensor (R27, R78). -/
  sel_n : Bool
  /-- The frame buffer `frame[0..9]` (R28, R50). -/
  frame : Memory
  /-- WindAngle as a code (R29). -/
  angle_code : AngleCode
  deriving DecidableEq, Repr

/-- The planner's outputs (R82). `step_count` is a function of them (R135). -/
structure Plan where
  /-- `plan_en`: motion enabled (R131). -/
  en : Bool
  /-- `plan_dir` (R132). -/
  dir : Direction
  /-- `steps_cw` (R133). -/
  stepsCw : StepCount
  /-- `steps_ccw` (R134). -/
  stepsCcw : StepCount
  deriving DecidableEq, Repr

/-- The MODEL's record of the output ports whose value no register holds: the results of GATE.COUNT, GATE.FIRE and the PLAN
cases. Nothing in the hardware reads it (notes/assumptions/3.md, DESIGN CHOICE). -/
structure Ports where
  /-- `fire` during the last edge (R103). -/
  fire : Bool
  /-- The planner's outputs as they stand after the last edge (R131 to R135). -/
  plan : Plan
  deriving DecidableEq, Repr

/-- The machine: the nine registers, and the model's own two fields. -/
structure State extends Regs where
  /-- The MODEL's own: the event words the environment will present, one per edge, the next one first (R166;
  notes/assumptions/1.md, DESIGN CHOICE). -/
  stimulus : List EventWord
  /-- The MODEL's own record of the ports without a register. -/
  ports : Ports
  deriving DecidableEq, Repr

/-- Why a step stops with a fault: never. "The hardware raises no exception and has no trap mechanism" (R170), so this type has
no constructor and no step of the model can fault. -/
inductive Fault where
  deriving DecidableEq, Repr

/-- Why a step is refused. -/
inductive Refusal where
  /-- Raised by `exec` for an operation that has no meaning yet. Every operation has one, so nothing raises it; it would be
  safe (the model would stop where the hardware goes on). -/
  | notModelled (mnemonic : String)
  deriving DecidableEq, Repr

/-- The state after a RESET edge of a hardware with this `TOTAL_W` (R38, R191). `frame` lists nothing: an unlisted byte reads
0x00, the reset value of every byte. The ports show what R191 gives; no event word is pending. -/
def State.resetWith (totalW : Nat) : State :=
  { gate_cnt := 0
    coil_step := 0
    coil := .off
    total_steps := ⟨totalW, 0⟩
    k := 0
    busy := false
    sel_n := true
    frame := []
    angle_code := 0#14
    stimulus := []
    ports :=
      { fire := false
        plan := { en := false, dir := .cw, stepsCw := 0#5, stepsCcw := 0#5 } } }

/-- The machine right after reset, with the default `TOTAL_W` (R7). -/
def State.reset : State := State.resetWith Config.totalWDefault

/-- `TOTAL_W` of this hardware. -/
abbrev State.totalW (s : State) : Nat := s.total_steps.width

end Sys2Proof.Machine
end

