-- ==== Sys2Proof/Machine/Operands.lean ====
section
/-! DEFINITION. The frame buffer's two operations, and every operand form of the hardware: the raw field and its parts
(30_encoding.md R75), the coil tables (R80), the transmit table (R77), and the angle in degrees (R119). -/

namespace Sys2Proof.Machine

open Sys2Proof

/-! ## The frame buffer (20_memory.md R50 to R54) -/

/-- What a byte that the list does not name reads as: 0x00, the reset value of every byte (R38). -/
def Memory.unlisted : Byte := 0x00#8

/-- The byte at index `i`. -/
def Memory.lookup : Memory → Nat → Byte
  | [], _ => Memory.unlisted
  | (a, b) :: rest, i => if a = i then b else Memory.lookup rest i

/-- Leave out every cell at index `i`. -/
def Memory.erase : Memory → Nat → Memory
  | [], _ => []
  | (a, b) :: rest, i => if a = i then Memory.erase rest i else (a, b) :: Memory.erase rest i

/-- Put a cell in front of the first one with a higher index. -/
def Memory.insert : Memory → Nat → Byte → Memory
  | [], i, b => [(i, b)]
  | (a, c) :: rest, i, b => if a < i then (a, c) :: Memory.insert rest i b else (i, b) :: (a, c) :: rest

/-- `frame[i]` (R11, R50): the only indices are 0 to 9, so no other access can be expressed. -/
def Memory.read (m : Memory) (i : Fin Config.frameLen) : Byte := Memory.lookup m i.val

/-- `frame[i] <- b` (R11): one byte (R54), the canonical form kept. -/
def Memory.write (m : Memory) (i : Fin Config.frameLen) (b : Byte) : Memory :=
  if b = Memory.unlisted then Memory.erase m i.val else Memory.insert (Memory.erase m i.val) i.val b

/-- Every index of the list lies above `lo`, the indices rise strictly, and no cell holds what an unlisted index reads as. -/
def Memory.wfFrom : Nat → Memory → Bool
  | _, [] => true
  | lo, (a, b) :: rest =>
    decide (lo ≤ a) && decide (a < Config.frameLen) && decide (b ≠ Memory.unlisted) && Memory.wfFrom (a + 1) rest

/-- The canonical form of the frame buffer. -/
def Memory.wf (m : Memory) : Bool := Memory.wfFrom 0 m

/-! ## The raw field (R52, R75) -/

/-- `raw = (frame[2] << 8) | frame[3]`: big-endian, `frame[2]` the more significant. -/
def rawField (m : Memory) : RawField := Memory.read m 2 ++ Memory.read m 3

/-- `raw[15:2]`, the angle code of a raw field. -/
def rawCode (raw : RawField) : AngleCode := raw.extractLsb' 2 14

/-- The validity bit of a raw field, `raw[0]` = `frame[3][0]`. -/
def rawValid (raw : RawField) : Bool := raw.getLsbD 0

/-! ## The angle in degrees (R76, R119) -/

/-- The degrees an angle code stands for, exactly. -/
def degreesOf (A : AngleCode) : ℚ := (A.toNat : ℚ) * Config.degPerCode

/-! ## The constant tables (R77, R80) -/

/-- `direction` as a bit: CW = 0, CCW = 1 (R79). -/
def directionBit : Direction → BitVec 1
  | .cw => 0#1
  | .ccw => 1#1

/-- The four bits that a value of `coil` drives: bit 0 is PORT1 to bit 3, PORT4 (R23, R80). -/
def Coil.bits : Coil → CoilBits
  | .off => 0x0#4
  | .ports12 => 0x3#4
  | .ports23 => 0x6#4
  | .ports34 => 0xC#4
  | .ports14 => 0x9#4

/-- The entry of direction `d` at index `i` (R80), as the register `coil` holds it. -/
def coilEntry : Direction → Fin Config.coilPhases → Coil
  | .cw, 0 => .ports12
  | .cw, 1 => .ports23
  | .cw, 2 => .ports34
  | .cw, 3 => .ports14
  | .ccw, 0 => .ports14
  | .ccw, 1 => .ports34
  | .ccw, 2 => .ports23
  | .ccw, 3 => .ports12

/-- `TABLE[d][i]`, the coil pattern of direction `d` at index `i` (R80). -/
def coilTable (d : Direction) (i : Fin Config.coilPhases) : CoilBits := (coilEntry d i).bits

/-- The pattern of the tuple (PORT1, PORT2, PORT3, PORT4): PORT`i` is bit `i - 1` (R80). -/
def coilOfTuple (p1 p2 p3 p4 : Bool) : CoilBits :=
  BitVec.ofBool p4 ++ BitVec.ofBool p3 ++ BitVec.ofBool p2 ++ BitVec.ofBool p1

/-- `tx_byte`: 0xAA at `k = 0`, else 0xFF (R77). -/
def txByte (k : Fin (Config.frameLen + 1)) : Byte := if k.val = 0 then 0xAA#8 else 0xFF#8

/-- `xfer`: the poll at `k` exchanges a byte (R77). -/
def xferFlag (k : Fin (Config.frameLen + 1)) : Bool := decide (k.val < Config.frameLen)

end Sys2Proof.Machine
end

