-- ==== Sys2Proof/Machine/Planner.lean ====
section
/-! DEFINITION. The step planner (42_step_planner.md): the combinational function of `angle_code`, its three cases, and the
source's own function in degrees. -/

namespace Sys2Proof.Machine

open Sys2Proof

/-! ## The hardware's function, in codes -/

/-- `plan_en` (R131): 512 <= A <= 15872. -/
def planEnabled (A : AngleCode) : Bool := decide (Config.stepCode ≤ A.toNat) && decide (A.toNat ≤ Config.topCode)

/-- `plan_dir` (R132): CW up to 8192, else CCW, also inside the dead-band (notes/assumptions/11.md). -/
def planDirection (A : AngleCode) : Direction := if A.toNat ≤ Config.halfCode then .cw else .ccw

/-- `A[13:9]`, the count of R133. -/
def cwCount (A : AngleCode) : StepCount := A.extractLsb' 9 5

/-- `(A - 8192) >> 9`, the count of R134, in `STEPS_W` bits. -/
def ccwCount (A : AngleCode) : StepCount := ((A - BitVec.ofNat 14 Config.halfCode) >>> 9).setWidth 5

/-- The planner (R131 to R134). -/
def planOf (A : AngleCode) : Plan :=
  { en := planEnabled A
    dir := planDirection A
    stepsCw := if planEnabled A && decide (A.toNat ≤ Config.halfCode) then cwCount A else 0#5
    stepsCcw := if planEnabled A && decide (Config.halfCode < A.toNat) then ccwCount A else 0#5 }

/-- `step_count` (R135), which is also the budget the motor sequencer tests (R146). -/
def Plan.stepCount (p : Plan) : StepCount :=
  match p.dir with
  | .cw => p.stepsCw
  | .ccw => p.stepsCcw

/-! ## The three cases, each as its rule writes it -/

/-- PLAN.NONE's outputs (R136). -/
def planNoneOutputs (A : AngleCode) : Plan :=
  { en := false, dir := planDirection A, stepsCw := 0#5, stepsCcw := 0#5 }

/-- PLAN.CW's outputs (R138). -/
def planCwOutputs (A : AngleCode) : Plan :=
  { en := true, dir := .cw, stepsCw := cwCount A, stepsCcw := 0#5 }

/-- PLAN.CCW's outputs (R139). -/
def planCcwOutputs (A : AngleCode) : Plan :=
  { en := true, dir := .ccw, stepsCw := 0#5, stepsCcw := ccwCount A }

/-! ## The source's function, in degrees (R130) -/

/-- An angle in degrees that the planner may take: R142 restricts the domain to [0, 360), and no other value can be written
down (notes/assumptions/22.md). -/
structure WindAngle where
  deg : ℚ
  nonneg : 0 ≤ deg
  lt_360 : deg < 360

/-- A number of degrees as a WindAngle: refused outside [0, 360), with no clamp (R142, 93_implementation_defined.md U4). -/
def WindAngle.ofDegrees? (w : ℚ) : Option WindAngle :=
  if h : 0 ≤ w ∧ w < 360 then some ⟨w, h.1, h.2⟩ else none

theorem degreesOf_nonneg (A : AngleCode) : 0 ≤ degreesOf A := by
  unfold degreesOf Config.degPerCode; positivity

theorem degreesOf_lt_360 (A : AngleCode) : degreesOf A < 360 := by
  have h : (A.toNat : ℚ) < 16384 := by exact_mod_cast A.isLt
  unfold degreesOf Config.degPerCode; linarith

/-- The angle a code stands for: every code is in the domain (R76, R142). -/
def windAngleOf (A : AngleCode) : WindAngle := ⟨degreesOf A, degreesOf_nonneg A, degreesOf_lt_360 A⟩

/-- The source's StepPlan for an angle in degrees. Its direction is absent where motion is disabled: the source assigns none. -/
structure DegreePlan where
  enabled : Bool
  direction : Option Direction
  stepsCw : Nat
  stepsCcw : Nat
  deriving DecidableEq, Repr

/-- R130 on the domain that R142 restricts it to. -/
def planOfDegrees (w : WindAngle) : DegreePlan :=
  if Config.stepAngle ≤ w.deg ∧ w.deg ≤ 360 - Config.stepAngle then
    if w.deg ≤ 180 then
      { enabled := true, direction := some .cw, stepsCw := ⌊w.deg / Config.stepAngle⌋.toNat, stepsCcw := 0 }
    else
      { enabled := true, direction := some .ccw, stepsCw := 0, stepsCcw := ⌊(w.deg - 180) / Config.stepAngle⌋.toNat }
  else
    { enabled := false, direction := none, stepsCw := 0, stepsCcw := 0 }

/-- The planner's outputs read at the degree level: the direction only where the source defines one (R137). -/
def Plan.asDegreePlan (p : Plan) : DegreePlan :=
  { enabled := p.en
    direction := if p.en then some p.dir else none
    stepsCw := p.stepsCw.toNat
    stepsCcw := p.stepsCcw.toNat }

end Sys2Proof.Machine
end

