-- ==== Sys2Proof/Machine/Flags.lean ====
section
/-! DEFINITION. The four one-bit conditions that the rules test (10_state.md R31). The hardware has no flags register and no
condition codes; only `busy` is stored. -/

namespace Sys2Proof.Machine

open Sys2Proof

/-- `valid` = `frame[3][0]` (R31 (1), R118). -/
def State.valid (s : State) : Bool := rawValid (rawField s.frame)

/-- The planner's outputs on the `angle_code` held now (R140). -/
def State.plan (s : State) : Plan := planOf s.angle_code

/-- `plan_en` (R31 (2), R131). -/
def State.planEn (s : State) : Bool := s.plan.en

/-- The next raw tick completes a group: `gate_cnt = MOTOR_DIV - 1` (R72). -/
def State.gateLast (s : State) : Bool := decide (s.gate_cnt.val + 1 = Config.motorDiv)

/-- `fire` at an edge that samples `ew` (R31 (3), R103): 1 exactly when `rst = 0`, `tick = 1` and `gate_cnt = MOTOR_DIV - 1`. -/
def State.fireOutput (s : State) (ew : EventWord) : Bool := !rstBit ew && tickBit ew && s.gateLast

/-- The budget: the count of the commanded direction (R146). -/
def State.budget (s : State) : StepCount := s.plan.stepCount

end Sys2Proof.Machine
end

