-- ==== Sys2Proof/Machine/Ops.lean ====
section
/-! DEFINITION. The named operations over the registers, which the meanings share. Each writes only the registers of one block
(10_state.md R34).

TAKING AN EXCEPTION has no operation here: the hardware raises none (60_exceptions.md R170), saves nothing and goes nowhere
(R178), and has no return operation (R179). The one "fault" with an effect, an invalid frame, is a register that holds (R171);
it is `State.commitAngle`. -/

namespace Sys2Proof.Machine

open Sys2Proof

/-! ## The environment's side (notes/assumptions/1.md and 2.md) -/

/-- The event word sampled at the next edge: the first pending one; with none pending every strobe is 0 (DESIGN CHOICE,
notes/assumptions/2.md). -/
def State.pendingWord (s : State) : EventWord :=
  match s.stimulus with
  | [] => 0x000#12
  | ew :: _ => ew

/-- The pending words after one edge. -/
def State.takeWord (s : State) : State := { s with stimulus := s.stimulus.drop 1 }

/-! ## The ports without a register -/

/-- Drive `fire` for this edge (R103). -/
def State.driveFire (b : Bool) (s : State) : State := { s with ports := { s.ports with fire := b } }

/-- Show the planner's outputs (R140). -/
def State.drivePlan (p : Plan) (s : State) : State := { s with ports := { s.ports with plan := p } }

/-! ## The tick gate (40_tick_gate.md) -/

/-- One raw tick of a tick gate with threshold `N` (R100): the counter, and whether the gate fires. A counter below `N` exists
only for `N >= 1` (R106). -/
def gateTick {N : Nat} (cnt : Fin N) : Fin N × Bool :=
  if h : cnt.val + 1 < N then (⟨cnt.val + 1, h⟩, false) else (⟨0, cnt.pos⟩, true)

/-- Write `gate_cnt`. -/
def State.setGate (c : Fin Config.motorDiv) (s : State) : State := { s with gate_cnt := c }

/-- A raw tick at the motor gate, its `fire` output with it (R101, R102, R103). -/
def State.advanceGate (s : State) : State :=
  (s.setGate (gateTick s.gate_cnt).1).driveFire (gateTick s.gate_cnt).2

/-! ## The motor sequencer (43_motor_sequencer.md) -/

/-- The next value of a step counter of any width (R148): it wraps at `2^w`. -/
def countStep {w : Nat} (n : BitVec w) : BitVec w := n + 1

/-- The next value of `total_steps`: its width, `TOTAL_W`, stays. -/
def StepCounter.next (c : StepCounter) : StepCounter := ⟨c.width, countStep c.count⟩

/-- One coil step in direction `d` (R148): the table entry at the index held before the edge; then both counters. -/
def State.stepCoil (d : Direction) (s : State) : State :=
  { s with
    coil := coilEntry d s.coil_step
    total_steps := s.total_steps.next
    coil_step := s.coil_step + 1 }

/-- The motor step of a firing edge for any planner outputs (R145, R150): `plan_en` first, then the budget. -/
def State.motorStep (p : Plan) (s : State) : State :=
  if !p.en then s
  else if p.stepCount ≠ 0 then s.stepCoil p.dir
  else s

/-! ## The sensor frame parser (41_sensor_link.md) -/

/-- POLL_BEGIN's writes (R111): `busy`, and the select line at `k = 0` and `k = 10`. -/
def State.beginPoll (s : State) : State :=
  { s with
    busy := true
    sel_n := if s.k.val = 0 then false else if s.k.val = Config.frameLen then true else s.sel_n }

/-- `frame[i] <- b`. -/
def State.storeByte (i : Fin Config.frameLen) (b : Byte) (s : State) : State :=
  { s with frame := Memory.write s.frame i b }

/-- Every POLL_END's end: the next frame position and `busy <- 0` (R112). -/
def State.endPoll (k : Fin (Config.frameLen + 1)) (s : State) : State := { s with k := k, busy := false }

/-- The commit of a complete frame (R116): only a valid one; otherwise "WindAngle holds last good value" (R171). -/
def State.commitAngle (s : State) : State :=
  { s with angle_code := if s.valid then rawCode (rawField s.frame) else s.angle_code }

/-! ## Reset (44_system_ops.md) -/

/-- All nine registers at their reset values (R160) and the ports as R191 gives them; the environment's words stay pending, and
`TOTAL_W`, a parameter, stays. -/
def State.toReset (s : State) : State := { State.resetWith s.totalW with stimulus := s.stimulus }

end Sys2Proof.Machine
end

