-- ==== Sys2Proof/Machine/Motor.lean ====
section
/-! DEFINITION. The meanings of MSTEP.HOLD, MSTEP.STEP and MSTEP.IDLE (43_motor_sequencer.md): what the motor sequencer does at a
firing edge. They are suboperations of GATE.FIRE, whose own write `gate_cnt <- 0` is R102's, not theirs. A case asked for in a
state that R72 does not select it in holds every register (notes/assumptions/4.md, DESIGN CHOICE). -/

namespace Sys2Proof.Machine

open Sys2Proof

/-- MSTEP.HOLD (R147): motion is disabled; "do nothing (hold current coil energization ...)". -/
def execMstepHold (s : State) : Host.Outcome State Fault Refusal := .next s

/-- MSTEP.STEP (R148): at a firing edge with `plan_en = 1` and a budget that is not zero, one coil step in the commanded
direction. The budget is not consumed (R153). -/
def execMstepStep (s : State) : Host.Outcome State Fault Refusal :=
  if s.gateLast && s.planEn && s.budget ≠ 0 then .next (s.stepCoil s.plan.dir) else .next s

/-- MSTEP.IDLE (R149): motion is enabled and the budget is zero: "no motion occurs this tick". -/
def execMstepIdle (s : State) : Host.Outcome State Fault Refusal := .next s

end Sys2Proof.Machine
end

