-- ==== Sys2Proof/Machine/PlanCases.lean ====
section
/-! DEFINITION. The meanings of PLAN.NONE, PLAN.CW and PLAN.CCW (42_step_planner.md): each shows its outputs on the planner's
ports and writes no register. -/

namespace Sys2Proof.Machine

open Sys2Proof

/-- PLAN.NONE (R136). -/
def execPlanNone (A : AngleCode) (s : State) : Host.Outcome State Fault Refusal := .next (s.drivePlan (planNoneOutputs A))

/-- PLAN.CW (R138). -/
def execPlanCw (A : AngleCode) (s : State) : Host.Outcome State Fault Refusal := .next (s.drivePlan (planCwOutputs A))

/-- PLAN.CCW (R139). -/
def execPlanCcw (A : AngleCode) (s : State) : Host.Outcome State Fault Refusal := .next (s.drivePlan (planCcwOutputs A))

end Sys2Proof.Machine
end

