-- ==== Sys2Proof/Machine/SensorLink.lean ====
section
/-! DEFINITION. The meanings of POLL_BEGIN, POLL_END and the four LINK operations (41_sensor_link.md). A strobe that does not
match `busy` changes no register (R120); a LINK variant asked for at another `k` holds every register (notes/assumptions/4.md,
DESIGN CHOICE). -/

namespace Sys2Proof.Machine

open Sys2Proof

/-- POLL_BEGIN (R111), ignored while `busy = 1` (R120). -/
def execPollBegin (s : State) : Host.Outcome State Fault Refusal :=
  if s.busy then .next s else .next s.beginPoll

/-- LINK.SYNC0 (R113): POLL_END at `k = 0`. -/
def execLinkSync0 (rx : Byte) (s : State) : Host.Outcome State Fault Refusal :=
  if s.busy && s.k.val == 0 then .next ((s.storeByte 0 rx).endPoll 1) else .next s

/-- LINK.SYNC1 (R114): POLL_END at `k = 1`. -/
def execLinkSync1 (rx : Byte) (s : State) : Host.Outcome State Fault Refusal :=
  if s.busy && s.k.val == 1 then .next ((s.storeByte 1 rx).endPoll 2) else .next s

/-- LINK.DATA (R115): POLL_END at `2 <= k <= 9`. -/
def execLinkData (rx : Byte) (s : State) : Host.Outcome State Fault Refusal :=
  if h : s.busy = true ∧ 2 ≤ s.k.val ∧ s.k.val < Config.frameLen then
    .next ((s.storeByte ⟨s.k.val, h.2.2⟩ rx).endPoll ⟨s.k.val + 1, Nat.succ_lt_succ h.2.2⟩)
  else .next s

/-- LINK.FINAL (R116): POLL_END at `k = 10`, the commit of a complete frame. -/
def execLinkFinal (s : State) : Host.Outcome State Fault Refusal :=
  if s.busy && s.k.val == Config.frameLen then .next (s.commitAngle.endPoll 0) else .next s

/-- POLL_END (R112): the variant that `k` selects, ignored while `busy = 0` (R120). -/
def execPollEnd (rx : Byte) (s : State) : Host.Outcome State Fault Refusal :=
  if !s.busy then .next s
  else if s.k.val = 0 then execLinkSync0 rx s
  else if s.k.val = 1 then execLinkSync1 rx s
  else if s.k.val < Config.frameLen then execLinkData rx s
  else execLinkFinal s

end Sys2Proof.Machine
end

