-- ==== Sys2Proof/Machine/System.lean ====
section
/-! DEFINITION. The meanings of RESET and NOP (44_system_ops.md). -/

namespace Sys2Proof.Machine

open Sys2Proof

/-- RESET (R160): reads nothing, writes all nine registers. -/
def execReset (s : State) : Host.Outcome State Fault Refusal := .next s.toReset

/-- NOP (R161): no register changes. -/
def execNop (s : State) : Host.Outcome State Fault Refusal := .next s

end Sys2Proof.Machine
end

