-- ==== Sys2Proof/Machine/TickGate.lean ====
section
/-! DEFINITION. The meanings of TICK, GATE.COUNT and GATE.FIRE (40_tick_gate.md). A variant asked for in a state that R72 does
not select it in holds every register (notes/assumptions/4.md, DESIGN CHOICE); the step never asks for it. -/

namespace Sys2Proof.Machine

open Sys2Proof

/-- GATE.COUNT (R101): a raw tick that does not complete a group. -/
def execGateCount (s : State) : Host.Outcome State Fault Refusal :=
  if s.gateLast then .next s else .next s.advanceGate

/-- GATE.FIRE (R102): the counter returns to 0 and, in the same edge, one motor step runs on the planner's outputs for the
`angle_code` held before the edge. -/
def execGateFire (s : State) : Host.Outcome State Fault Refusal :=
  if s.gateLast then .next (s.advanceGate.motorStep s.plan) else .next s

/-- TICK (R104): GATE.COUNT or GATE.FIRE as R72 selects, and nothing else. -/
def execTick (s : State) : Host.Outcome State Fault Refusal :=
  if s.gateLast then execGateFire s else execGateCount s

end Sys2Proof.Machine
end

