-- ==== Sys2Proof/Machine/Dispatch.lean ====
section
/-! DEFINITION. One arm per operation of the opcode table. -/

namespace Sys2Proof.Machine

open Sys2Proof

def exec (i : Instr) (s : State) : Host.Outcome State Fault Refusal :=
  match i with
  | .reset => Sys2Proof.Machine.execReset s
  | .nop => Sys2Proof.Machine.execNop s
  | .tick => Sys2Proof.Machine.execTick s
  | .gateCount => Sys2Proof.Machine.execGateCount s
  | .gateFire => Sys2Proof.Machine.execGateFire s
  | .mstepHold => Sys2Proof.Machine.execMstepHold s
  | .mstepStep => Sys2Proof.Machine.execMstepStep s
  | .mstepIdle => Sys2Proof.Machine.execMstepIdle s
  | .pollBegin => Sys2Proof.Machine.execPollBegin s
  | .pollEnd rx => Sys2Proof.Machine.execPollEnd rx s
  | .linkSync0 rx => Sys2Proof.Machine.execLinkSync0 rx s
  | .linkSync1 rx => Sys2Proof.Machine.execLinkSync1 rx s
  | .linkData rx => Sys2Proof.Machine.execLinkData rx s
  | .linkFinal => Sys2Proof.Machine.execLinkFinal s
  | .planNone A => Sys2Proof.Machine.execPlanNone A s
  | .planCw A => Sys2Proof.Machine.execPlanCw A s
  | .planCcw A => Sys2Proof.Machine.execPlanCcw A s

end Sys2Proof.Machine
end

