-- ==== Sys2Proof/Machine/Select.lean ====
section
/-! DEFINITION. Which operations an edge performs, with the registers fed to the decoder's stages (30_encoding.md R71 and R72). -/

namespace Sys2Proof.Machine

open Sys2Proof

/-- The operations of an edge that samples `ew` (R71). -/
def State.operations (s : State) (ew : EventWord) : EdgeSet := eventOps s.busy ew

/-- The variant of an event that the registers select (R72): TICK and POLL_END become one of their variants, every other
operation is its own. -/
def State.variant (s : State) : Instr → Instr
  | .tick => gateVariant s.gate_cnt
  | .pollEnd rx => linkVariant s.k rx
  | .reset => .reset
  | .nop => .nop
  | .gateCount => .gateCount
  | .gateFire => .gateFire
  | .mstepHold => .mstepHold
  | .mstepStep => .mstepStep
  | .mstepIdle => .mstepIdle
  | .pollBegin => .pollBegin
  | .linkSync0 rx => .linkSync0 rx
  | .linkSync1 rx => .linkSync1 rx
  | .linkData rx => .linkData rx
  | .linkFinal => .linkFinal
  | .planNone A => .planNone A
  | .planCw A => .planCw A
  | .planCcw A => .planCcw A

/-- The motor step that a firing edge carries in this state (R72, R150). -/
def State.motorCase (s : State) : Instr := motorVariant s.planEn s.budget

/-- The case of the planner on the `angle_code` held now (R72, R140). -/
def State.planCase (s : State) : Instr := planVariant s.angle_code

/-- The table's column "when": the registers' part of an operation's selection (R72). -/
def State.selects (s : State) : Instr → Bool
  | .reset => true
  | .nop => true
  | .tick => true
  | .gateCount => !s.gateLast
  | .gateFire => s.gateLast
  | .mstepHold => s.gateLast && !s.planEn
  | .mstepStep => s.gateLast && s.planEn && decide (s.budget ≠ 0)
  | .mstepIdle => s.gateLast && s.planEn && decide (s.budget = 0)
  | .pollBegin => !s.busy
  | .pollEnd _ => s.busy
  | .linkSync0 _ => s.busy && decide (s.k.val = 0)
  | .linkSync1 _ => s.busy && decide (s.k.val = 1)
  | .linkData _ => s.busy && decide (2 ≤ s.k.val) && decide (s.k.val ≤ 9)
  | .linkFinal => s.busy && decide (s.k.val = 10)
  | .planNone A => decide (A = s.angle_code) && inDeadBand A
  | .planCw A => decide (A = s.angle_code) && inCwRange A
  | .planCcw A => decide (A = s.angle_code) && inCcwRange A

/-- Every row of the opcode table that acts at an edge sampling `ew`: the events of R71, their variants, the motor step a firing
edge carries, and the planner's case, which holds at every edge (R72). -/
def State.activeRows (s : State) (ew : EventWord) : List Instr :=
  let events := (s.operations ew).ops
  let variants := (events.map s.variant).filter (fun i => !events.contains i)
  let motor := if s.fireOutput ew then [s.motorCase] else []
  events ++ variants ++ motor ++ [s.planCase]

end Sys2Proof.Machine
end

