-- ==== Sys2Proof/Machine/Edge.lean ====
section
/-! DEFINITION. One clock edge (00_scope.md R8, 20_memory.md R56, 60_exceptions.md R177): the operations of the sampled event word,
each run on the state before the edge, their writes put together, and the planner's outputs on the new `angle_code`. -/

namespace Sys2Proof.Machine

open Sys2Proof

/-- Go on from a next state; a stop stays a stop. -/
def andThen (o : Host.Outcome State Fault Refusal) (f : State → Host.Outcome State Fault Refusal) :
    Host.Outcome State Fault Refusal :=
  match o with
  | .next t => f t
  | .fault r => .fault r
  | .refused r => .refused r

/-- The state after an edge at which the tick gate's operation gave `g` and the parser's gave `l`, both from the state before
the edge: the parser's registers come from `l`, all others from `g` (R34, R177 (2)). -/
def joinBlocks (g l : State) : State :=
  { g with k := l.k, busy := l.busy, sel_n := l.sel_n, frame := l.frame, angle_code := l.angle_code }

/-- Run the set of an edge's operations, each on the same state. -/
def runSet (s : State) : EdgeSet → Host.Outcome State Fault Refusal
  | .single i => exec (s.variant i) s
  | .pair g l => andThen (exec (s.variant g) s) (fun a => andThen (exec (s.variant l) s) (fun b => .next (joinBlocks a b)))

/-- The planner is combinational (R140): after every edge its ports show the case of the `angle_code` held then. -/
def showPlan (t : State) : Host.Outcome State Fault Refusal := exec t.planCase t

/-- One clock edge that samples `ew`. `fire` is 0 unless GATE.FIRE drives it during this edge (R103). -/
def edge (ew : EventWord) (s : State) : Host.Outcome State Fault Refusal :=
  andThen (runSet (s.driveFire false) (s.operations ew)) showPlan

end Sys2Proof.Machine
end

