-- ==== Sys2Proof/Machine/Step.lean ====
section
/-! DEFINITION. The step: one clock edge on the next pending event word. -/

namespace Sys2Proof.Machine

open Sys2Proof

/-- One step is one rising edge of `clk` (R8): it samples the next pending event word and takes it from the list. -/
def step (s : State) : Host.Outcome State Fault Refusal := edge s.pendingWord s.takeWord

/-- Put the word `w` (in `nbits` bits, at most the 12 of an event word) where the next step samples its event word; the words
that were pending follow it. -/
def State.withFetchWord (s : State) (nbits w : Nat) : State :=
  { s with stimulus := BitVec.ofNat 12 (w % 2 ^ nbits) :: s.stimulus }

end Sys2Proof.Machine
end

