-- ==== Sys2Proof/Machine/Ports.lean ====
section
/-! DEFINITION. The observation ports (10_state.md R37; 44_system_ops.md R162 to R164). Reading one has no effect: each is a
function of the state, and `fire` also of the sampled event word. -/

namespace Sys2Proof.Machine

open Sys2Proof

/-- The output ports of R37, in its order and with its widths. -/
structure Outputs where
  coil : CoilBits
  sel_n : Bool
  tx_byte : Byte
  xfer : Bool
  busy : Bool
  k : BitVec 4
  angle_code : AngleCode
  total_steps : StepCounter
  coil_step : BitVec 2
  gate_cnt : BitVec 2
  fire : Bool
  plan_en : Bool
  plan_dir : BitVec 1
  steps_cw : StepCount
  steps_ccw : StepCount
  step_count : StepCount
  frame : List Byte
  deriving DecidableEq, Repr

/-- The ten bytes of the frame buffer in index order. -/
def frameBytes (m : Memory) : List Byte := (List.finRange Config.frameLen).map (Memory.read m)

/-- The output ports at an edge that samples `ew` (R37). -/
def State.outputs (s : State) (ew : EventWord) : Outputs :=
  { coil := s.coil.bits
    sel_n := s.sel_n
    tx_byte := txByte s.k
    xfer := xferFlag s.k
    busy := s.busy
    k := BitVec.ofNat 4 s.k.val
    angle_code := s.angle_code
    total_steps := s.total_steps
    coil_step := BitVec.ofNat 2 s.coil_step.val
    gate_cnt := BitVec.ofNat 2 s.gate_cnt.val
    fire := s.fireOutput ew
    plan_en := s.plan.en
    plan_dir := directionBit s.plan.dir
    steps_cw := s.plan.stepsCw
    steps_ccw := s.plan.stepsCcw
    step_count := s.plan.stepCount
    frame := frameBytes s.frame }

/-- `current_wind_angle() -> degrees` (R162): the port `angle_code` in degrees. -/
def State.currentWindAngle (s : State) : ℚ := degreesOf s.angle_code

/-- `total_steps_taken() -> count` (R163). -/
def State.totalStepsTaken (s : State) : Nat := s.total_steps.count.toNat

end Sys2Proof.Machine
end

