-- ==== Sys2Proof/Machine/Run.lean ====
section
/-! DEFINITION. A run and its result (44_system_ops.md R166), and the fused poll (41_sensor_link.md R121). -/

namespace Sys2Proof.Machine

open Sys2Proof

/-- A run: a finite sequence of event words, one per edge, in order (R166). Its result is the registers after the last edge. -/
def runEdges : List EventWord → State → Host.Outcome State Fault Refusal
  | [], s => .next s
  | ew :: rest, s => andThen (edge ew s) (runEdges rest)

/-- The outputs of a run edge by edge (R166), each as it stands at the edge that samples the word. -/
def runOutputs : List EventWord → State → List Outputs
  | [], _ => []
  | ew :: rest, s =>
    s.outputs ew ::
      match edge ew s with
      | .next t => runOutputs rest t
      | .fault _ => []
      | .refused _ => []

/-- The fused step `POLL(rx)` (R121), the source's own step less its waits, for a state with `busy = 0`. -/
def State.fusedPoll (rx : Byte) (s : State) : State :=
  if h : s.k.val < Config.frameLen then
    { s with
      sel_n := if s.k.val = 0 then false else s.sel_n
      frame := Memory.write s.frame ⟨s.k.val, h⟩ rx
      k := ⟨s.k.val + 1, Nat.succ_lt_succ h⟩ }
  else
    { s with
      sel_n := true
      angle_code := if s.valid then rawCode (rawField s.frame) else s.angle_code
      k := 0 }

end Sys2Proof.Machine
end

