-- ==== Sys2Proof/Machine/Stimulus.lean ====
section
/-! DEFINITION. The stimulus notation (30_encoding.md R85 and R86): lines that stand for event words, one per clock edge, and the
pseudo-lines that stand for several. -/

namespace Sys2Proof.Machine

open Sys2Proof

/-- One line of a stimulus (R85). -/
inductive Line where
  | RESET
  | NOP
  | TICK
  | PB
  | PE (b : Byte)
  | TICK_PB
  | TICK_PE (b : Byte)
  deriving DecidableEq, Repr

/-- The event word of a line (R85). -/
def lineWord : Line → EventWord
  | .RESET => 0x800#12
  | .NOP => 0x000#12
  | .TICK => 0x400#12
  | .PB => 0x200#12
  | .PE b => 0x1#4 ++ b
  | .TICK_PB => 0x600#12
  | .TICK_PE b => 0x5#4 ++ b

/-- `POLL b` (R86). -/
def pollLines (b : Byte) : List Line := [.PB, .PE b]

/-- `FIN` (R86). -/
def finLines : List Line := pollLines 0x00#8

/-- `FRAME b0 ... b9` (R86): one POLL per byte, then FIN. -/
def frameLines (bytes : List Byte) : List Line := bytes.flatMap pollLines ++ finLines

/-- `TICKS n` (R86). -/
def tickLines (n : Nat) : List Line := List.replicate n .TICK

/-- `IDLE n` (R86). -/
def idleLines (n : Nat) : List Line := List.replicate n .NOP

/-- The event words of a stimulus. -/
def stimulusWords (ls : List Line) : List EventWord := ls.map lineWord

end Sys2Proof.Machine
end

