-- ==== Sys2Proof/Safety.lean ====
section
/-! DEFINITION. The terms the claims use: the invariants of the registers (10_state.md R35), the blocks that own them (R34), the
reachable states, and the duties of the environment (70_reset_and_hazards.md), which the hardware does not check. -/

namespace Sys2Proof.Machine

open Sys2Proof

/-! ## Invariants (R35) -/

/-- R35 (c): when the select line is asserted. -/
def selectedWhen (r : Regs) : Bool :=
  (decide (1 ≤ r.k.val) && decide (r.k.val ≤ 9)) || (decide (r.k.val = 0) && r.busy)
    || (decide (r.k.val = 10) && !r.busy)

/-- R35 (e): the four coil patterns of R80. -/
def coilPatterns : List CoilBits := [0x3#4, 0x6#4, 0xC#4, 0x9#4]

/-- The invariant of every state after reset: R35 (c), R35 (e), the frame buffer's canonical form, and the planner's ports showing
the plan of the `angle_code` held (R140). R35 (a), (b), (d) and (e) hold by the registers' types; (e) stands here as it reads on the
port `coil`. The frame buffer's form and the record of the ports are the model's own (notes/assumptions/9.md and 3.md). -/
structure Inv (s : State) : Prop where
  select_line : s.sel_n = !selectedWhen s.toRegs
  coil_pattern : s.coil.bits = 0x0#4 ∨ s.coil.bits ∈ coilPatterns
  frame_canonical : Memory.wf s.frame = true
  ports_current : s.ports.plan = s.plan

/-! ## Ownership (R34) -/

/-- The operations that write the tick gate's register. -/
def writesGate : Instr → Bool
  | .reset => true
  | .tick => true
  | .gateCount => true
  | .gateFire => true
  | .nop => false
  | .mstepHold => false
  | .mstepStep => false
  | .mstepIdle => false
  | .pollBegin => false
  | .pollEnd _ => false
  | .linkSync0 _ => false
  | .linkSync1 _ => false
  | .linkData _ => false
  | .linkFinal => false
  | .planNone _ => false
  | .planCw _ => false
  | .planCcw _ => false

/-- The operations that perform a motor step or may carry one: only they write `coil_step`, `coil` and `total_steps`. -/
def writesMotor : Instr → Bool
  | .reset => true
  | .tick => true
  | .gateFire => true
  | .mstepStep => true
  | .gateCount => false
  | .nop => false
  | .mstepHold => false
  | .mstepIdle => false
  | .pollBegin => false
  | .pollEnd _ => false
  | .linkSync0 _ => false
  | .linkSync1 _ => false
  | .linkData _ => false
  | .linkFinal => false
  | .planNone _ => false
  | .planCw _ => false
  | .planCcw _ => false

/-- The operations of the sensor frame parser, and RESET: only they write `k`, `busy`, `sel_n`, `frame` and `angle_code`. -/
def writesLink : Instr → Bool
  | .reset => true
  | .pollBegin => true
  | .pollEnd _ => true
  | .linkSync0 _ => true
  | .linkSync1 _ => true
  | .linkData _ => true
  | .linkFinal => true
  | .nop => false
  | .tick => false
  | .gateCount => false
  | .gateFire => false
  | .mstepHold => false
  | .mstepStep => false
  | .mstepIdle => false
  | .planNone _ => false
  | .planCw _ => false
  | .planCcw _ => false

/-- Two states agree on the motor sequencer's registers. -/
def sameMotor (s t : State) : Prop :=
  t.coil_step = s.coil_step ∧ t.coil = s.coil ∧ t.total_steps = s.total_steps

/-- Two states agree on the sensor frame parser's registers. -/
def sameLink (s t : State) : Prop :=
  t.k = s.k ∧ t.busy = s.busy ∧ t.sel_n = s.sel_n ∧ t.frame = s.frame ∧ t.angle_code = s.angle_code

/-! ## What a run counts (R105, R155) -/

/-- The value of `total_steps` after `n` executed steps: modulo `2^TOTAL_W`, the width kept. -/
def StepCounter.plus (c : StepCounter) (n : Nat) : StepCounter := ⟨c.width, c.count + BitVec.ofNat c.width n⟩

/-- The raw ticks among a run's event words. -/
def tickCount (ws : List EventWord) : Nat := ws.countP tickBit

/-- The next motor step of this state would execute (R150): motion is enabled and the budget is not zero. -/
def State.wouldStep (s : State) : Bool := s.planEn && decide (s.budget ≠ 0)

/-- The MSTEP.STEP operations that a run executes (R155). -/
def stepsExecuted : List EventWord → State → Nat
  | [], _ => 0
  | ew :: rest, s =>
    (if s.fireOutput ew && s.wouldStep then 1 else 0) +
      match edge ew s with
      | .next t => stepsExecuted rest t
      | .fault _ => 0
      | .refused _ => 0

/-- A tick gate alone over `n` raw ticks (R100): the counter, and the ordinals (from 1, counting on from `at0`) that fired. -/
def gateRun {N : Nat} : Nat → Nat → Fin N → Fin N × List Nat
  | 0, _, c => (c, [])
  | n + 1, at0, c =>
    let (c', fired) := gateTick c
    let (e, rest) := gateRun n (at0 + 1) c'
    (e, if fired then (at0 + 1) :: rest else rest)

/-! ## Duties of the environment (R117, R200, R201, R205): preconditions of a claim about the physical system -/

/-- The order of poll events (R201): `poll_begin` only when `busy = 0`, `poll_end` only when `busy = 1`, never both. -/
def pollOrderKept (s : State) (ew : EventWord) : Bool :=
  (!pollBeginBit ew || !s.busy) && (!pollEndBit ew || s.busy) && !(pollBeginBit ew && pollEndBit ew)

/-- R205: a byte is received only while the sensor is selected. -/
def exchangeSelected (s : State) (ew : EventWord) : Bool :=
  !(pollEndBit ew && s.busy && xferFlag s.k) || !s.sel_n

/-- What the environment does in one poll (R117): the level of `sel_n` after POLL_BEGIN, the wait before the exchange, the byte
it sends (none at `k = 10`), and the wait after POLL_END, in microseconds (R200). -/
structure PollDuty where
  sel_n : Bool
  waitBefore : ℚ
  send : Option Byte
  waitAfter : ℚ
  deriving DecidableEq, Repr

/-- The table of R117 with the waits of R200, all read as lower bounds. -/
def pollDuty (k : Fin (Config.frameLen + 1)) : PollDuty :=
  if k.val = 0 then { sel_n := false, waitBefore := 69 / 10, send := some 0xAA#8, waitAfter := 40 }
  else if k.val = 1 then { sel_n := false, waitBefore := 0, send := some 0xFF#8, waitAfter := 50 }
  else if k.val < Config.frameLen then { sel_n := false, waitBefore := 0, send := some 0xFF#8, waitAfter := 40 }
  else { sel_n := true, waitBefore := 1500, send := none, waitAfter := 0 }

/-- The time the waits of one frame cycle add up to, in microseconds, byte exchanges left out (R211). -/
def frameWaits : ℚ :=
  ((List.finRange (Config.frameLen + 1)).map (fun k => (pollDuty k).waitBefore + (pollDuty k).waitAfter)).sum

end Sys2Proof.Machine
end

