-- ==== Sys2Proof/Certificates/Slice0/Obligations.lean ====
section
/-! DEFINITION. The statements for the provers. Each docstring names the rule a statement formalises. A statement about a next
state writes it as the state before with the changed registers named, so it says its frame as well. -/

open Sys2Proof Sys2Proof.Machine

/-! ## The step, decoding and encoding -/

/-- A step runs the decoded operation: with one operation in the edge's set the step is `exec` of its variant (R72), with two it
is `exec` of both on the same state, their writes joined; the planner's case of the new `angle_code` is run after it; and
`withFetchWord` places the word that the next step samples. The list of pending words, the word of an empty list and the 12 bits that
`withFetchWord` takes are the MODEL's choices (notes/assumptions/1.md, 2.md and 16.md). -/
def Obligations.StepRunsTheDecodedOperations : Prop :=
  (∀ (s : State) (i : Instr), s.operations s.pendingWord = .single i →
      step s = andThen (exec (s.variant i) (s.takeWord.driveFire false)) (fun t => exec t.planCase t)) ∧
    (∀ (s : State) (g l : Instr), s.operations s.pendingWord = .pair g l →
      step s = andThen (exec (s.variant g) (s.takeWord.driveFire false)) (fun a =>
        andThen (exec (s.variant l) (s.takeWord.driveFire false)) (fun b =>
          exec (joinBlocks a b).planCase (joinBlocks a b)))) ∧
    (∀ (s : State) (w : Nat), w < 4096 → step (s.withFetchWord 16 w) = edge (BitVec.ofNat 12 w) s)

/-- Words written out bit by bit from R70 and R85 decode to the operation they stand for. That a word of two events, 0x600, is no
single operation for `decodeTableWord` is the MODEL's choice (notes/assumptions/5.md); its set is that of R71. -/
def Obligations.WrittenWordsDecode : Prop :=
  decodeTableWord 16 0b100000000000 = some .reset ∧ decodeTableWord 16 0b000000000000 = some .nop ∧
    decodeTableWord 16 0b010000000000 = some .tick ∧ decodeTableWord 16 0b001000000000 = some .pollBegin ∧
    decodeTableWord 16 0b000110100101 = some (.pollEnd 0xA5#8) ∧ decodeTableWord 16 0b011000000000 = none ∧
    eventOps false 0b011000000000#12 = .pair .tick .pollBegin ∧
    eventOps true 0b010111101110#12 = .pair .tick (.pollEnd 0xEE#8) ∧
    planVariant 0b00001000000000#14 = .planCw 512#14 ∧ planVariant 0b10000000000001#14 = .planCcw 8193#14 ∧
    planVariant 0b00000000001110#14 = .planNone 14#14

/-- R71 (the spec's decisions D3, D5 and D18): the set of operations of an event word, step by step. -/
def Obligations.EventWordSelectsItsSet : Prop :=
  ∀ (busy : Bool) (ew : EventWord),
    (ew.getLsbD 11 = true → (eventOps busy ew).ops = [.reset]) ∧
    (ew.getLsbD 11 = false →
      (.tick ∈ (eventOps busy ew).ops ↔ ew.getLsbD 10 = true) ∧
      (.pollBegin ∈ (eventOps busy ew).ops ↔ ew.getLsbD 9 = true ∧ busy = false) ∧
      (∀ rx : Byte, .pollEnd rx ∈ (eventOps busy ew).ops ↔
        ew.getLsbD 8 = true ∧ busy = true ∧ rx = ew.extractLsb' 0 8) ∧
      (.nop ∈ (eventOps busy ew).ops ↔
        ew.getLsbD 10 = false ∧ ¬ (ew.getLsbD 9 = true ∧ busy = false) ∧ ¬ (ew.getLsbD 8 = true ∧ busy = true)) ∧
      (∀ i ∈ (eventOps busy ew).ops, i = .nop ∨ i = .tick ∨ i = .pollBegin ∨ ∃ rx, i = .pollEnd rx)) ∧
    (∀ rx : Byte, ¬ (.pollBegin ∈ (eventOps busy ew).ops ∧ .pollEnd rx ∈ (eventOps busy ew).ops))

/-- Decode of encode, whole sets: every set that R71 can give with this `busy` is what its own event word selects, every
`rx_byte` included. -/
def Obligations.EncodedSetDecodesToItself : Prop :=
  ∀ (busy : Bool) (e : EdgeSet), e.wellFormed busy = true →
    ∃ w, encodeSet e = .event w ∧ eventOps busy w = e

/-- Decode of encode, row by row: in a state that selects a well-formed operation (the table's column "when"), the operation's
own word makes its row active; for a case of the planner the word is the code itself. -/
def Obligations.EncodedOperationIsActiveWhereSelected : Prop :=
  ∀ (s : State) (i : Instr), wellFormed i = true → s.selects i = true →
    match encode i with
    | .event w => i ∈ s.activeRows w
    | .angle A => planVariant A = i ∧ s.planCase = i

/-- The converse: a row is active at an edge only where its "when" column holds, with a well-formed operand, and, NOP apart (it is
also the result of ignored strobes, R161), only on a word with the bits its row fixes. -/
def Obligations.ActiveRowsMatchTheTable : Prop :=
  ∀ (s : State) (ew : EventWord) (i : Instr), i ∈ s.activeRows ew →
    wellFormed i = true ∧ s.selects i = true ∧ (i ≠ .nop → fitsRow i (.event ew) = true)

/-- The table's event rows: the decoder reads an event's own word back, every `rx_byte` included. -/
def Obligations.TableWordDecodesToItsEvent : Prop :=
  ∀ i : Instr, (i = .reset ∨ i = .nop ∨ i = .tick ∨ i = .pollBegin ∨ ∃ rx, i = .pollEnd rx) →
    decodeTableWord 16 (encode i).toNat = some i

/-- R170: every operation, every event word and every state has a step; nothing faults, and no fault can be written down. -/
def Obligations.EveryStateAndWordHasAStep : Prop :=
  (∀ (i : Instr) (s : State), ∃ t, exec i s = .next t) ∧ (∀ (ew : EventWord) (s : State), ∃ t, edge ew s = .next t) ∧
    (∀ s : State, ∃ t, step s = .next t) ∧ (Fault → False)

/-- R73 and R120 (the spec's decision D5): no event word is illegal, and what its ignored bits change. With `rst` nothing else
counts; a strobe that does not match `busy` counts for nothing, and alone it changes no register; `rx_byte` counts only at a
POLL_END with `k <= 9`. -/
def Obligations.IgnoredBitsChangeNothing : Prop :=
  (∀ (ew : EventWord) (s : State), ∃ t, edge ew s = .next t) ∧
  (∀ (ew : EventWord) (s : State), ew.getLsbD 11 = true → edge ew s = edge 0x800#12 s) ∧
    (∀ (ew : EventWord) (s : State), s.busy = true → edge ew s = edge (ew &&& 0xDFF#12) s) ∧
    (∀ (ew : EventWord) (s : State), s.busy = false → edge ew s = edge (ew &&& 0xEFF#12) s) ∧
    (∀ (ew : EventWord) (s : State), ew.getLsbD 11 = false → ew.getLsbD 10 = false →
      ¬ (ew.getLsbD 9 = true ∧ s.busy = false) → ¬ (ew.getLsbD 8 = true ∧ s.busy = true) →
      ∃ t, edge ew s = .next t ∧ t.toRegs = s.toRegs) ∧
    (∀ (ew : EventWord) (s : State), ¬ (ew.getLsbD 8 = true ∧ s.busy = true ∧ s.k.val ≤ 9) →
      edge ew s = edge (ew &&& 0xF00#12) s)

/-- The MODEL's choice (notes/assumptions/4.md): an operation asked for in a state that does not select it holds every register.
The cases of the planner are apart: they write no register at all. -/
def Obligations.UnselectedOperationHolds : Prop :=
  ∀ (s : State) (i : Instr), s.selects i = false →
    (∀ A, i ≠ .planNone A) → (∀ A, i ≠ .planCw A) → (∀ A, i ≠ .planCcw A) → exec i s = .next s

/-! ## RESET, NOP and the state after reset -/

/-- R160 (the values by the spec's decision D13): RESET puts every register at its reset value, wins over every other event of its
edge, and is not remembered. That the frame buffer is then the empty list and that the pending words stay are the model's own
(notes/assumptions/9.md and 1.md). -/
def Obligations.ResetWritesEveryRegister : Prop :=
  (∀ s : State, ∃ t, exec .reset s = .next t ∧ t.gate_cnt = 0 ∧ t.coil_step = 0 ∧ t.coil.bits = 0b0000#4 ∧
      t.total_steps.count = 0 ∧ t.totalW = s.totalW ∧ t.k = 0 ∧ t.busy = false ∧ t.sel_n = true ∧
      (∀ i, Memory.read t.frame i = 0x00#8) ∧ t.frame = [] ∧ t.angle_code = 0 ∧ t.stimulus = s.stimulus) ∧
    (∀ (ew : EventWord) (s : State), ew.getLsbD 11 = true → edge ew s = exec .reset s)

/-- R191 (the values by the spec's decision D13): the state after reset and the outputs that follow from it, for every `TOTAL_W`;
`State.reset` takes R7's default of it. -/
def Obligations.StateAfterReset : Prop :=
  State.reset = State.resetWith 32 ∧ ∀ totalW : ℕ,
    let r := State.resetWith totalW
    r.gate_cnt = 0 ∧ r.coil_step = 0 ∧ r.coil.bits = 0b0000#4 ∧ r.totalW = totalW ∧ r.total_steps.count = 0 ∧
      r.k = 0 ∧ r.busy = false ∧ r.sel_n = true ∧ (∀ i, Memory.read r.frame i = 0x00#8) ∧ r.angle_code = 0 ∧
      ∀ ew : EventWord, (r.outputs ew).tx_byte = 0xAA#8 ∧ (r.outputs ew).xfer = true ∧ (r.outputs ew).fire = false ∧
        (r.outputs ew).plan_en = false ∧ (r.outputs ew).plan_dir = directionBit .cw ∧ (r.outputs ew).steps_cw = 0 ∧
        (r.outputs ew).steps_ccw = 0 ∧ (r.outputs ew).step_count = 0

/-- R161: NOP, and any edge without `rst` at which no operation acts, changes no register, and it changes nothing of what the
next edge does. -/
def Obligations.NopChangesNoRegister : Prop :=
  (∀ s : State, exec .nop s = .next s) ∧
    (∀ (ew : EventWord) (s : State), s.operations ew = .single .nop ↔
      ew.getLsbD 11 = false ∧ ew.getLsbD 10 = false ∧ ¬ (ew.getLsbD 9 = true ∧ s.busy = false) ∧
        ¬ (ew.getLsbD 8 = true ∧ s.busy = true)) ∧
    (∀ (ew : EventWord) (s : State), s.operations ew = .single .nop →
      ∃ t, edge ew s = .next t ∧ t.toRegs = s.toRegs ∧ t.stimulus = s.stimulus ∧
        ∀ ew' : EventWord, edge ew' t = edge ew' s)

/-- Where the coils can first be energized (70_reset_and_hazards.md, section Reset). As one edge: a state with no coil energized,
`coil_step` and `total_steps` 0 and no stepping plan keeps those three registers at every edge without `rst`, and its plan steps
afterwards only where that edge committed a valid frame with a code in 512 to 8192 or 8704 to 15872. After reset the state is such
a one; along every run from reset the three registers hold as long as no state that an edge started from had a stepping plan; and
without any `poll_end` motion stays disabled. -/
def Obligations.CoilsStayOffUntilAFrameCommits : Prop :=
  (∀ (ew : EventWord) (s : State), s.coil.bits = 0x0#4 → s.coil_step = 0 → s.total_steps.count = 0 → s.wouldStep = false →
      ew.getLsbD 11 = false →
      let raw : BitVec 16 := ((Memory.read s.frame 2).setWidth 16 <<< 8) ||| (Memory.read s.frame 3).setWidth 16
      let code := (raw.extractLsb' 2 14).toNat
      ∃ t, edge ew s = .next t ∧ t.coil.bits = 0x0#4 ∧ t.coil_step = 0 ∧ t.total_steps.count = 0 ∧ t.totalW = s.totalW ∧
        (t.wouldStep = true → ew.getLsbD 8 = true ∧ s.busy = true ∧ s.k.val = 10 ∧
          (Memory.read s.frame 3).getLsbD 0 = true ∧ ((512 ≤ code ∧ code ≤ 8192) ∨ (8704 ≤ code ∧ code ≤ 15872)))) ∧
    (∀ totalW : ℕ, let r := State.resetWith totalW
      r.coil.bits = 0x0#4 ∧ r.coil_step = 0 ∧ r.total_steps.count = 0 ∧ r.wouldStep = false) ∧
    (∀ (totalW : ℕ) (ws : List EventWord), (∀ ew ∈ ws, ew.getLsbD 11 = false) →
      (∀ n u, n < ws.length → runEdges (ws.take n) (State.resetWith totalW) = .next u → u.wouldStep = false) →
      ∃ t, runEdges ws (State.resetWith totalW) = .next t ∧ sameMotor (State.resetWith totalW) t) ∧
    (∀ (totalW : ℕ) (ws : List EventWord), (∀ ew ∈ ws, ew.getLsbD 11 = false ∧ ew.getLsbD 8 = false) →
      ∃ t, runEdges ws (State.resetWith totalW) = .next t ∧ sameMotor (State.resetWith totalW) t ∧ t.angle_code = 0 ∧
        t.plan.en = false)

/-! ## The tick gate -/

/-- R101: GATE.COUNT, the words and states that select it, and what it writes. -/
def Obligations.GateCountAddsOne : Prop :=
  ∀ s : State, s.gate_cnt.val ≠ Config.motorDiv - 1 →
    s.variant .tick = .gateCount ∧
    (∀ ew : EventWord, ew.getLsbD 11 = false → ew.getLsbD 10 = true → .tick ∈ (s.operations ew).ops) ∧
    ∃ t, exec .gateCount s = .next t ∧ t.gate_cnt.val = s.gate_cnt.val + 1 ∧ t.ports.fire = false ∧
      t = { s with gate_cnt := t.gate_cnt, ports := { s.ports with fire := false } }

/-- R102: GATE.FIRE returns the counter to 0, raises `fire`, and performs in the same edge exactly one motor step, chosen by the
planner's outputs on the `angle_code` held before. -/
def Obligations.GateFireCarriesOneMotorStep : Prop :=
  ∀ s : State, s.gate_cnt.val = Config.motorDiv - 1 →
    s.variant .tick = .gateFire ∧
    (∀ ew : EventWord, ew.getLsbD 11 = false → ew.getLsbD 10 = true → .tick ∈ (s.operations ew).ops) ∧
    (s.motorCase = if s.planEn = false then .mstepHold else if s.budget = 0 then .mstepIdle else .mstepStep) ∧
    ∃ m, exec s.motorCase s = .next m ∧
      exec .gateFire s = .next { m with gate_cnt := 0, ports := { m.ports with fire := true } } ∧
      sameLink s m ∧ m.stimulus = s.stimulus ∧ m.ports = s.ports

/-- R104: TICK is GATE.COUNT or GATE.FIRE; an edge without a tick leaves the gate and the motor alone; each edge with one counts
once. -/
def Obligations.TickIsOneOfItsVariants : Prop :=
  (∀ s : State, ∃ t, exec .tick s = .next t ∧
      exec (if s.gate_cnt.val = Config.motorDiv - 1 then .gateFire else .gateCount) s = .next t ∧
      t.gate_cnt.val = (s.gate_cnt.val + 1) % Config.motorDiv) ∧
    (∀ (ew : EventWord) (s : State), ew.getLsbD 11 = false → ew.getLsbD 10 = false →
      ∃ t, edge ew s = .next t ∧ t.gate_cnt = s.gate_cnt ∧ sameMotor s t) ∧
    (∀ (ew : EventWord) (s : State), ew.getLsbD 11 = false → ew.getLsbD 10 = true →
      ∃ t, edge ew s = .next t ∧ t.gate_cnt.val = (s.gate_cnt.val + 1) % Config.motorDiv)

/-- R103 (the spec's decision D15): the output `fire`, as the port gives it and as the edge records it; no other output looks at
the event word. -/
def Obligations.FireIsHighOnTheCompletingTick : Prop :=
  (∀ (ew ew' : EventWord) (s : State), s.outputs ew' = { s.outputs ew with fire := (s.outputs ew').fire }) ∧
  ∀ (ew : EventWord) (s : State),
    ((s.outputs ew).fire = true ↔
      ew.getLsbD 11 = false ∧ ew.getLsbD 10 = true ∧ s.gate_cnt.val = Config.motorDiv - 1) ∧
    ∃ t, edge ew s = .next t ∧ t.ports.fire = (s.outputs ew).fire

/-- The gate's property (40_tick_gate.md, section 3): a gate with any threshold `N >= 1`, from 0, fires on the raw ticks numbered
N, 2N, 3N, ... and on no other. -/
def Obligations.GateFiresOnEveryNthTick : Prop :=
  ∀ (N : Nat) (hN : 0 < N) (n : Nat),
    (gateRun n 0 (⟨0, hN⟩ : Fin N)).1.val = n % N ∧
      (gateRun n 0 (⟨0, hN⟩ : Fin N)).2 = ((List.range n).map (· + 1)).filter (fun j => j % N = 0)

/-- Over any run without RESET the motor gate's counter has counted the raw ticks modulo `MOTOR_DIV`: polls and empty edges do
not count, however many there are. -/
def Obligations.GateCounterCountsRawTicks : Prop :=
  ∀ (ws : List EventWord) (s : State), (∀ ew ∈ ws, ew.getLsbD 11 = false) →
    ∃ t, runEdges ws s = .next t ∧ t.gate_cnt.val = (s.gate_cnt.val + tickCount ws) % Config.motorDiv

/-! ## The motor sequencer -/

/-- R80: the two coil tables as tuples (PORT1, PORT2, PORT3, PORT4), and the CCW table as the CW table in the opposite order. -/
def Obligations.CoilTablesAsTuples : Prop :=
  coilTable .cw 0 = coilOfTuple true true false false ∧ coilTable .cw 1 = coilOfTuple false true true false ∧
    coilTable .cw 2 = coilOfTuple false false true true ∧ coilTable .cw 3 = coilOfTuple true false false true ∧
    coilTable .ccw 0 = coilOfTuple true false false true ∧ coilTable .ccw 1 = coilOfTuple false false true true ∧
    coilTable .ccw 2 = coilOfTuple false true true false ∧ coilTable .ccw 3 = coilOfTuple true true false false ∧
    (coilTable .cw 0, coilTable .cw 1, coilTable .cw 2, coilTable .cw 3) = (0b0011#4, 0b0110#4, 0b1100#4, 0b1001#4) ∧
    (∀ i, coilTable .ccw i = coilTable .cw (3 - i)) ∧
    ∀ p1 p2 p3 p4 : Bool, (coilOfTuple p1 p2 p3 p4).getLsbD 0 = p1 ∧ (coilOfTuple p1 p2 p3 p4).getLsbD 1 = p2 ∧
      (coilOfTuple p1 p2 p3 p4).getLsbD 2 = p3 ∧ (coilOfTuple p1 p2 p3 p4).getLsbD 3 = p4

/-- R147: MSTEP.HOLD. At a firing edge with `plan_en = 0` nothing but `gate_cnt` and the output `fire` changes. -/
def Obligations.MstepHoldWritesNothing : Prop :=
  (∀ s : State, exec .mstepHold s = .next s) ∧
    (∀ s : State, s.gate_cnt.val = Config.motorDiv - 1 → s.planEn = false →
      s.motorCase = .mstepHold ∧
      exec .gateFire s = .next { s with gate_cnt := 0, ports := { s.ports with fire := true } })

/-- R148: MSTEP.STEP. The pattern is the entry at the index held before; the index always advances by 1; `total_steps` wraps at
its width `TOTAL_W`, whatever it is (R7: OPEN); the counts do not change. -/
def Obligations.MstepStepTakesOneCoilStep : Prop :=
  (∀ (w : ℕ) (n : BitVec w), (countStep n).toNat = (n.toNat + 1) % 2 ^ w) ∧
  ∀ s : State, s.gate_cnt.val = Config.motorDiv - 1 → s.planEn = true → s.budget ≠ 0 →
    s.motorCase = .mstepStep ∧
    ∃ t, exec .mstepStep s = .next t ∧ t.coil.bits = coilTable s.plan.dir s.coil_step ∧
      t.total_steps.count.toNat = (s.total_steps.count.toNat + 1) % 2 ^ s.totalW ∧ t.totalW = s.totalW ∧
      t.coil_step.val = (s.coil_step.val + 1) % 4 ∧ t.plan = s.plan ∧
      t = { s with coil := t.coil, total_steps := t.total_steps, coil_step := t.coil_step } ∧
      exec .gateFire s = .next { t with gate_cnt := 0, ports := { t.ports with fire := true } }

/-- R149: MSTEP.IDLE. Motion is enabled, the budget is zero, nothing but `gate_cnt` and the output `fire` changes; with the
planner as the source this is the band 8193 to 8703. -/
def Obligations.MstepIdleWritesNothing : Prop :=
  (∀ s : State, exec .mstepIdle s = .next s) ∧
    (∀ s : State, s.gate_cnt.val = Config.motorDiv - 1 → s.planEn = true → s.budget = 0 →
      s.motorCase = .mstepIdle ∧
      exec .gateFire s = .next { s with gate_cnt := 0, ports := { s.ports with fire := true } }) ∧
    (∀ s : State, (s.planEn = true ∧ s.budget = 0) ↔ (8193 ≤ s.angle_code.toNat ∧ s.angle_code.toNat ≤ 8703)) ∧
    (∀ (p : Plan) (s : State), p.en = true → p.dir = .cw → p.stepsCw = 0 → s.motorStep p = s) ∧
    (∀ (p : Plan) (s : State), p.en = true → p.dir = .ccw → p.stepsCcw = 0 → s.motorStep p = s)

/-- R146 and R150: the sequencer alone, on any planner outputs: first `plan_en`, then the count of the commanded direction; the
other count is not looked at. -/
def Obligations.MotorStepDecidesInOrder : Prop :=
  ∀ (p : Plan) (s : State),
    let budget := if p.dir = .cw then p.stepsCw else p.stepsCcw
    p.stepCount = budget ∧
    (p.en = false → s.motorStep p = s) ∧
    (p.en = true → budget ≠ 0 →
      s.motorStep p = { s with coil := coilEntry p.dir s.coil_step, total_steps := s.total_steps.plus 1,
                               coil_step := s.coil_step + 1 }) ∧
    (p.en = true → budget = 0 → s.motorStep p = s)

/-- R145: the sequencer's registers change only at a firing edge, and there by the motor step on the plan of the `angle_code`
held before the edge, whatever else the edge does. -/
def Obligations.MotorActsOnlyAtFiringEdges : Prop :=
  ∀ (ew : EventWord) (s : State), ew.getLsbD 11 = false →
    ∃ t, edge ew s = .next t ∧
      (s.fireOutput ew = false → sameMotor s t) ∧ (s.fireOutput ew = true → sameMotor (s.motorStep s.plan) t)

/-- Four steps of a constant plan walk the table and return to index 0 (43_motor_sequencer.md, section 3). -/
def Obligations.FourStepsWalkTheTable : Prop :=
  ∀ (p : Plan) (s : State), p.en = true → p.stepCount ≠ 0 → s.coil_step = 0 →
    let s1 := s.motorStep p
    let s2 := s1.motorStep p
    let s3 := s2.motorStep p
    let s4 := s3.motorStep p
    (p.dir = .cw → [s1.coil.bits, s2.coil.bits, s3.coil.bits, s4.coil.bits] = [0x3#4, 0x6#4, 0xC#4, 0x9#4]) ∧
    (p.dir = .ccw → [s1.coil.bits, s2.coil.bits, s3.coil.bits, s4.coil.bits] = [0x9#4, 0xC#4, 0x6#4, 0x3#4]) ∧
    s4.coil_step = 0 ∧ s4.total_steps = s.total_steps.plus 4

/-- A change of direction keeps the index: a CCW step writes the pattern whose CW index is `3 - coil_step`; so after two CW
steps from index 0 the first CCW step rewrites the pattern already there, and is counted (43_motor_sequencer.md, section 3). -/
def Obligations.ReversalKeepsTheIndex : Prop :=
  (∀ s : State, (s.stepCoil .ccw).coil.bits = coilTable .cw (3 - s.coil_step)) ∧
    (∀ s : State, s.coil_step = 0 →
      let s2 := (s.stepCoil .cw).stepCoil .cw
      (s2.stepCoil .ccw).coil = s2.coil ∧ (s2.stepCoil .ccw).total_steps = s2.total_steps.plus 1 ∧
        ((s2.stepCoil .ccw).stepCoil .ccw).coil.bits = 0x3#4)

/-- R153: the budget is a condition, not a countdown. The motor step depends on the count only through its being zero; and with
a stepping plan and no polls the motor steps on every gated tick, for any number of them. -/
def Obligations.BudgetIsNotConsumed : Prop :=
  (∀ (p q : Plan) (s : State), p.en = q.en → p.dir = q.dir → (p.stepCount = 0 ↔ q.stepCount = 0) →
      s.motorStep p = s.motorStep q) ∧
    (∀ (n : Nat) (s : State), s.gate_cnt = 0 → s.wouldStep = true →
      ∃ t, runEdges (stimulusWords (tickLines (4 * n))) s = .next t ∧ t.gate_cnt = 0 ∧ sameLink s t ∧ t.plan = s.plan ∧
        t.total_steps = s.total_steps.plus n)

/-- `total_steps` counts the executed MSTEP.STEP operations modulo `2^TOTAL_W` over any run without RESET, and nothing else
(43_motor_sequencer.md, section 3). -/
def Obligations.TotalStepsCountsExecutedSteps : Prop :=
  ∀ (ws : List EventWord) (s : State), (∀ ew ∈ ws, ew.getLsbD 11 = false) →
    ∃ t, runEdges ws s = .next t ∧
      t.total_steps.count.toNat = (s.total_steps.count.toNat + stepsExecuted ws s) % 2 ^ s.totalW ∧ t.totalW = s.totalW

/-- The coils are never switched off but by RESET: the pattern changes only at an executed step, and a pattern of the table is
followed by a pattern of the table (10_state.md section 1; 60_exceptions.md section 7). -/
def Obligations.CoilsStayEnergized : Prop :=
  ∀ (ew : EventWord) (s : State), ew.getLsbD 11 = false →
    ∃ t, edge ew s = .next t ∧ (t.coil ≠ s.coil → s.fireOutput ew = true ∧ s.wouldStep = true) ∧
      (s.fireOutput ew = true → s.wouldStep = true → t.coil.bits ∈ coilPatterns) ∧
      (s.coil.bits ∈ coilPatterns → t.coil.bits ∈ coilPatterns)

/-! ## The sensor frame parser -/

/-- R111: POLL_BEGIN, and its being ignored while `busy = 1`. -/
def Obligations.PollBeginDrivesTheSelectLine : Prop :=
  (∀ s : State, s.busy = false →
      exec .pollBegin s = .next
        { s with busy := true
                 sel_n := if s.k.val = 0 then false else if s.k.val = 10 then true else s.sel_n }) ∧
    (∀ s : State, s.busy = true → exec .pollBegin s = .next s) ∧
    (∀ (ew : EventWord) (s : State), ew.getLsbD 11 = false → ew.getLsbD 9 = true → s.busy = false →
      .pollBegin ∈ (s.operations ew).ops)

/-- R112: POLL_END is the variant that `k` selects, every variant clears `busy`, and with `busy = 0` it is ignored. -/
def Obligations.PollEndIsOneOfItsVariants : Prop :=
  (∀ (rx : Byte) (s : State), s.busy = true →
      (s.k.val = 0 → s.variant (.pollEnd rx) = .linkSync0 rx) ∧
      (s.k.val = 1 → s.variant (.pollEnd rx) = .linkSync1 rx) ∧
      (2 ≤ s.k.val → s.k.val ≤ 9 → s.variant (.pollEnd rx) = .linkData rx) ∧
      (s.k.val = 10 → s.variant (.pollEnd rx) = .linkFinal) ∧
      ∃ t, exec (.pollEnd rx) s = .next t ∧ exec (s.variant (.pollEnd rx)) s = .next t ∧ t.busy = false) ∧
    (∀ (rx : Byte) (s : State), s.busy = false → exec (.pollEnd rx) s = .next s) ∧
    (∀ (ew : EventWord) (s : State), ew.getLsbD 11 = false → ew.getLsbD 8 = true → s.busy = true →
      .pollEnd (ew.extractLsb' 0 8) ∈ (s.operations ew).ops)

/-- R113: LINK.SYNC0. The byte is stored whatever its value. -/
def Obligations.LinkSync0StoresTheFirstByte : Prop :=
  ∀ (rx : Byte) (s : State), s.busy = true → s.k.val = 0 →
    txByte s.k = 0xAA#8 ∧ xferFlag s.k = true ∧
    ∃ t, exec (.linkSync0 rx) s = .next t ∧ t.k.val = 1 ∧ t.busy = false ∧ Memory.read t.frame 0 = rx ∧
      (∀ i, i ≠ 0 → Memory.read t.frame i = Memory.read s.frame i) ∧
      t = { s with frame := t.frame, k := t.k, busy := t.busy }

/-- R114: LINK.SYNC1. -/
def Obligations.LinkSync1StoresTheSecondByte : Prop :=
  ∀ (rx : Byte) (s : State), s.busy = true → s.k.val = 1 →
    txByte s.k = 0xFF#8 ∧ xferFlag s.k = true ∧
    ∃ t, exec (.linkSync1 rx) s = .next t ∧ t.k.val = 2 ∧ t.busy = false ∧ Memory.read t.frame 1 = rx ∧
      (∀ i, i ≠ 1 → Memory.read t.frame i = Memory.read s.frame i) ∧
      t = { s with frame := t.frame, k := t.k, busy := t.busy }

/-- R115: LINK.DATA at every `k` from 2 to 9; `angle_code` does not change. -/
def Obligations.LinkDataStoresAtThePosition : Prop :=
  ∀ (rx : Byte) (s : State), s.busy = true → 2 ≤ s.k.val → s.k.val ≤ 9 →
    txByte s.k = 0xFF#8 ∧ xferFlag s.k = true ∧
    ∃ t, exec (.linkData rx) s = .next t ∧ t.k.val = s.k.val + 1 ∧ t.busy = false ∧
      (∀ i : Fin Config.frameLen, Memory.read t.frame i = if i.val = s.k.val then rx else Memory.read s.frame i) ∧
      t = { s with frame := t.frame, k := t.k, busy := t.busy }

/-- R116: LINK.FINAL. `angle_code` takes `raw[15:2]` when the validity bit is 1 and keeps its value otherwise; the frame buffer and
the select line keep theirs. -/
def Obligations.LinkFinalCommitsAValidFrame : Prop :=
  ∀ s : State, s.busy = true → s.k.val = 10 →
    let raw : BitVec 16 := ((Memory.read s.frame 2).setWidth 16 <<< 8) ||| (Memory.read s.frame 3).setWidth 16
    xferFlag s.k = false ∧
    ∃ t, exec .linkFinal s = .next t ∧ t.k.val = 0 ∧ t.busy = false ∧
      ((Memory.read s.frame 3).getLsbD 0 = true → t.angle_code = raw.extractLsb' 2 14) ∧
      ((Memory.read s.frame 3).getLsbD 0 = false → t.angle_code = s.angle_code) ∧
      t = { s with angle_code := t.angle_code, k := t.k, busy := t.busy }

/-- The angle a valid frame yields, in degrees (41_sensor_link.md, section 4): ((raw >> 2) mod 2^14) * 3600/163840, in [0, 360). -/
def Obligations.CommittedAngleInDegrees : Prop :=
  ∀ s : State, s.busy = true → s.k.val = 10 → (Memory.read s.frame 3).getLsbD 0 = true →
    ∃ t, exec .linkFinal s = .next t ∧
      t.currentWindAngle
        = (((((Memory.read s.frame 2).toNat * 256 + (Memory.read s.frame 3).toNat) / 4) % 2 ^ 14 : ℕ) : ℚ)
          * (3600 / 163840) ∧
      0 ≤ t.currentWindAngle ∧ t.currentWindAngle < 360

/-- Bytes 0, 1 and 4 to 9 and raw bit 1 have no effect on anything but the buffer: two states that agree on the rest commit the
same angle (93_implementation_defined.md U5). -/
def Obligations.UnreadFrameBitsHaveNoEffect : Prop :=
  ∀ (s : State) (m : Memory), Memory.read m 2 = Memory.read s.frame 2 →
    Memory.read m 3 &&& 0xFD#8 = Memory.read s.frame 3 &&& 0xFD#8 →
    ∃ t, exec .linkFinal s = .next t ∧ exec .linkFinal { s with frame := m } = .next { t with frame := m }

/-- The fused poll (41_sensor_link.md, section 5): POLL_BEGIN and then POLL_END, from `busy = 0`, are the one step `POLL(rx)`. -/
def Obligations.PollIsBeginThenEnd : Prop :=
  ∀ (rx : Byte) (s : State), s.busy = false →
    ∃ u, exec .pollBegin s = .next u ∧ exec (.pollEnd rx) u = .next (s.fusedPoll rx)

/-- A whole frame cycle (41_sensor_link.md, section 6): the 22 edges of `FRAME b0 ... b9` from `k = 0`, `busy = 0`, and what
`sel_n` and `angle_code` show after each edge on the way. -/
def Obligations.FrameCycleCommitsItsBytes : Prop :=
  ∀ (b : Fin 10 → Byte) (s : State), s.k = 0 → s.busy = false →
    (∃ t, runEdges (stimulusWords (frameLines (List.ofFn b))) s = .next t ∧ t.k = 0 ∧ t.busy = false ∧
      t.sel_n = true ∧ (∀ i, Memory.read t.frame i = b i) ∧
      t.angle_code = (if (b 3).getLsbD 0 then (b 2 ++ (b 3).extractLsb' 2 6 : BitVec 14) else s.angle_code) ∧
      t.gate_cnt = s.gate_cnt ∧ sameMotor s t ∧ t.stimulus = s.stimulus) ∧
    ∀ n, 1 ≤ n → n < 22 →
      ∃ u, runEdges ((stimulusWords (frameLines (List.ofFn b))).take n) s = .next u ∧
        u.sel_n = decide (21 ≤ n) ∧ u.angle_code = s.angle_code

/-- Ticks and empty edges may be interleaved anywhere without changing what the parser does: clearing every tick bit and
deleting the words left without a strobe gives the same parser registers (41_sensor_link.md, section 6). -/
def Obligations.ParserIgnoresInterleavedTicks : Prop :=
  ∀ (ws : List EventWord) (s : State),
    ∃ t u, runEdges ws s = .next t ∧
      runEdges ((ws.map (· &&& 0xBFF#12)).filter (fun ew => ew &&& 0xF00#12 ≠ 0)) s = .next u ∧ sameLink t u

/-- `angle_code` changes only at a POLL_END with `k = 10` and `frame[3][0] = 1`, RESET apart (10_state.md section 5 (g)). -/
def Obligations.AngleChangesOnlyAtAValidCommit : Prop :=
  ∀ (ew : EventWord) (s : State), ew.getLsbD 11 = false →
    ∃ t, edge ew s = .next t ∧
      (t.angle_code ≠ s.angle_code →
        ew.getLsbD 8 = true ∧ s.busy = true ∧ s.k.val = 10 ∧ (Memory.read s.frame 3).getLsbD 0 = true)

/-- The environment that keeps the order of poll events (70_reset_and_hazards.md section 3) has no strobe ignored, and in every
state of the invariant a byte is received only while the sensor is selected. -/
def Obligations.OrderedPollsAreNeverIgnored : Prop :=
  (∀ (ew : EventWord) (s : State), ew.getLsbD 11 = false → pollOrderKept s ew = true →
      (ew.getLsbD 9 = true → .pollBegin ∈ (s.operations ew).ops) ∧
      (ew.getLsbD 8 = true → .pollEnd (ew.extractLsb' 0 8) ∈ (s.operations ew).ops)) ∧
    (∀ (ew : EventWord) (s : State), Inv s → exchangeSelected s ew = true)

/-- The waits of one frame cycle add up to 1916.9 microseconds (70_reset_and_hazards.md section 4). -/
def Obligations.FrameWaitsAddUp : Prop := frameWaits = 19169 / 10

/-! ## The step planner -/

/-- R136: PLAN.NONE's outputs on its own codes (the direction in the dead-band is R132's, by the spec's decision D9,
notes/assumptions/11.md), and the codes and degrees that select it. It writes no register. -/
def Obligations.PlanNoneDisablesMotion : Prop :=
  (∀ (A : AngleCode) (s : State), A.toNat ≤ 511 ∨ 15873 ≤ A.toNat → exec (.planNone A) s = .next
      { s with ports := { s.ports with
          plan := { en := false, dir := if A.toNat ≤ 8192 then .cw else .ccw, stepsCw := 0, stepsCcw := 0 } } }) ∧
    (∀ A : AngleCode, (A.toNat ≤ 511 ∨ 15873 ≤ A.toNat) ↔ planVariant A = .planNone A) ∧
    (∀ A : AngleCode, (A.toNat ≤ 511 ∨ 15873 ≤ A.toNat) ↔ degreesOf A < 45 / 4 ∨ 1395 / 4 < degreesOf A) ∧
    (∀ A : AngleCode, A.toNat ≤ 511 ∨ 15873 ≤ A.toNat →
      (planOf A).en = false ∧ (planOf A).stepsCw = 0 ∧ (planOf A).stepsCcw = 0 ∧ (planOf A).stepCount = 0 ∧
        (planOf A).dir = if A.toNat ≤ 8192 then .cw else .ccw)

/-- R138: PLAN.CW's outputs on its own codes, and the codes that select it; the count is never 0. It writes no register. -/
def Obligations.PlanCwCountsFromZeroDegrees : Prop :=
  (∀ (A : AngleCode) (s : State), 512 ≤ A.toNat → A.toNat ≤ 8192 → exec (.planCw A) s = .next
      { s with ports := { s.ports with
          plan := { en := true, dir := .cw, stepsCw := BitVec.ofNat 5 (A.toNat / 512), stepsCcw := 0 } } }) ∧
    (∀ A : AngleCode, (512 ≤ A.toNat ∧ A.toNat ≤ 8192) ↔ planVariant A = .planCw A) ∧
    (∀ A : AngleCode, (512 ≤ A.toNat ∧ A.toNat ≤ 8192) ↔ 45 / 4 ≤ degreesOf A ∧ degreesOf A ≤ 180) ∧
    (∀ A : AngleCode, 512 ≤ A.toNat → A.toNat ≤ 8192 →
      (planOf A).en = true ∧ (planOf A).dir = .cw ∧ (planOf A).stepsCw.toNat = A.toNat / 512 ∧
        (planOf A).stepsCcw = 0 ∧ (planOf A).stepCount = (planOf A).stepsCw ∧ (planOf A).stepCount ≠ 0) ∧
    (∀ s : State, 512 ≤ s.angle_code.toNat → s.angle_code.toNat ≤ 8192 → s.wouldStep = true)

/-- R139: PLAN.CCW's outputs on its own codes, and the codes that select it; the count is 0 exactly up to 8703. It writes no
register. -/
def Obligations.PlanCcwCountsFromHalfTurn : Prop :=
  (∀ (A : AngleCode) (s : State), 8193 ≤ A.toNat → A.toNat ≤ 15872 → exec (.planCcw A) s = .next
      { s with ports := { s.ports with
          plan := { en := true, dir := .ccw, stepsCw := 0,
                    stepsCcw := BitVec.ofNat 5 ((A.toNat - 8192) / 512) } } }) ∧
    (∀ A : AngleCode, (8193 ≤ A.toNat ∧ A.toNat ≤ 15872) ↔ planVariant A = .planCcw A) ∧
    (∀ A : AngleCode, (8193 ≤ A.toNat ∧ A.toNat ≤ 15872) ↔ 180 < degreesOf A ∧ degreesOf A ≤ 1395 / 4) ∧
    (∀ A : AngleCode, 8193 ≤ A.toNat → A.toNat ≤ 15872 →
      (planOf A).en = true ∧ (planOf A).dir = .ccw ∧ (planOf A).stepsCw = 0 ∧
        (planOf A).stepsCcw.toNat = (A.toNat - 8192) / 512 ∧ (planOf A).stepCount = (planOf A).stepsCcw ∧
        ((planOf A).stepCount = 0 ↔ A.toNat ≤ 8703))

/-- The planner on codes and the source's function on degrees agree on all 16384 codes (42_step_planner.md, sections 1 and 3): the
same enable, the same direction where the source defines one, the same two counts. -/
def Obligations.CodePlanEqualsDegreePlan : Prop :=
  ∀ A : AngleCode,
    let w : ℚ := (A.toNat : ℚ) * (45 / 2048)
    w = degreesOf A ∧ w = (windAngleOf A).deg ∧ 0 ≤ w ∧ w < 360 ∧
      planOfDegrees (windAngleOf A) = (planOf A).asDegreePlan ∧
      ((planOf A).en = true ↔ 45 / 4 ≤ w ∧ w ≤ 360 - 45 / 4) ∧
      ((planOf A).en = true → ((planOf A).dir = .cw ↔ w ≤ 180)) ∧
      ((planOf A).en = true → w ≤ 180 → ((planOf A).stepsCw.toNat : ℤ) = ⌊w / (45 / 4)⌋ ∧ (planOf A).stepsCcw = 0) ∧
      ((planOf A).en = true → 180 < w → ((planOf A).stepsCcw.toNat : ℤ) = ⌊(w - 180) / (45 / 4)⌋ ∧ (planOf A).stepsCw = 0)

/-- At most one count is nonzero, and it belongs to `plan_dir` (10_state.md section 5 (f)); `steps_cw` never exceeds 16 and
`steps_ccw` never 15 (30_encoding.md section 3). -/
def Obligations.PlanCountsBelongToTheDirection : Prop :=
  ∀ A : AngleCode,
    ((planOf A).stepsCw ≠ 0 → (planOf A).dir = .cw ∧ (planOf A).stepsCcw = 0) ∧
    ((planOf A).stepsCcw ≠ 0 → (planOf A).dir = .ccw ∧ (planOf A).stepsCw = 0) ∧
    (planOf A).stepsCw.toNat ≤ 16 ∧ (planOf A).stepsCcw.toNat ≤ 15

/-! ## The machine as a whole -/

/-- The invariant holds after reset, for every `TOTAL_W`. Two of its clauses are about the model's own data, the canonical form of
the frame buffer and the record of the ports (notes/assumptions/9.md and 3.md). -/
def Obligations.InvariantHoldsAtReset : Prop := Inv State.reset ∧ ∀ totalW : ℕ, Inv (State.resetWith totalW)

/-- Every step keeps the invariant, from every state that has it: the select line follows `k` and `busy`, the coils show a
pattern of the table or nothing, and, for the model's own data (notes/assumptions/9.md and 3.md), the frame buffer is in
canonical form and the planner's ports are current. -/
def Obligations.EveryStepKeepsTheInvariant : Prop :=
  ∀ s t : State, Inv s → step s = .next t → Inv t

/-- R34: each register has one writing block; RESET apart, an operation of another block leaves it unchanged, and the planner's
cases change no register. -/
def Obligations.EachRegisterHasOneWriter : Prop :=
  (∀ (i : Instr) (s t : State), exec i s = .next t →
      (writesGate i = false → t.gate_cnt = s.gate_cnt) ∧ (writesMotor i = false → sameMotor s t) ∧
      (writesLink i = false → sameLink s t)) ∧
    (∀ s t : State, exec s.planCase s = .next t → t.toRegs = s.toRegs) ∧
    (∀ s t : State, exec .reset s = .next t → t.toRegs = (State.resetWith s.totalW).toRegs)

/-- Events sampled at one edge (60_exceptions.md section 3, the spec's decision D18). `rst` acts alone; otherwise the tick and the
poll event both act on the state before the edge, each on its own registers; of the two poll strobes only the one matching `busy`
acts. -/
def Obligations.SameEdgeEventsAreIndependent : Prop :=
  (∀ (ew : EventWord) (s : State), ew.getLsbD 11 = true → edge ew s = exec .reset s) ∧
    (∀ (ew : EventWord) (s : State), ew.getLsbD 11 = false →
      ∃ t a b, edge ew s = .next t ∧ edge (ew &&& 0x4FF#12) s = .next a ∧ edge (ew &&& 0xBFF#12) s = .next b ∧
        t.gate_cnt = a.gate_cnt ∧ sameMotor a t ∧ sameLink b t) ∧
    (∀ (ew : EventWord) (s : State), edge ew s = edge (ew &&& (if s.busy then 0xDFF#12 else 0xEFF#12)) s)

/-- One edge equals the tick handled first and the poll second; the other order gives the same registers except where a gated
tick and a POLL_END at `k = 10` coincide (92_eei_decisions.md D18). -/
def Obligations.EdgeEqualsTickThenPoll : Prop :=
  ∀ (ew : EventWord) (s : State), ew.getLsbD 11 = false →
    (∃ t u v, edge ew s = .next t ∧ edge (ew &&& 0x4FF#12) s = .next u ∧ edge (ew &&& 0xBFF#12) u = .next v ∧
      t.toRegs = v.toRegs) ∧
    (¬ (s.fireOutput ew = true ∧ ew.getLsbD 8 = true ∧ s.busy = true ∧ s.k.val = 10) →
      ∃ t u v, edge ew s = .next t ∧ edge (ew &&& 0xBFF#12) s = .next u ∧ edge (ew &&& 0x4FF#12) u = .next v ∧
        t.toRegs = v.toRegs)

/-- The MODEL's own event list (notes/assumptions/1.md): steps of the machine on a state whose pending words begin with `ws` are
the run of `ws`, and every run has a result (44_system_ops.md R166). -/
def Obligations.StepsAreTheRunOfTheStimulus : Prop :=
  ∀ (ws rest : List EventWord) (s : State), ∃ t, runEdges ws { s with stimulus := rest } = .next t ∧
    t.stimulus = rest ∧ (runOutputs ws s).length = ws.length ∧
    (Host.Core.run core ws.length ({ s with stimulus := ws ++ rest } : State) :
      Host.Outcome State Fault Refusal) = .next t

/-- R37 and R77: the output ports as functions of the registers, and of the sampled word for `fire`, whose condition is R103's: it
has `rst = 0`, which R37's shorter form leaves to R103 (notes/assumptions/12.md). -/
def Obligations.OutputPortsShowTheRegisters : Prop :=
  ∀ (ew : EventWord) (s : State),
    (s.outputs ew).coil = s.coil.bits ∧ (s.outputs ew).sel_n = s.sel_n ∧
    (s.outputs ew).tx_byte = (if s.k = 0 then 0xAA#8 else 0xFF#8) ∧ (s.outputs ew).xfer = decide (s.k.val ≤ 9) ∧
    (s.outputs ew).busy = s.busy ∧ (s.outputs ew).k.toNat = s.k.val ∧ (s.outputs ew).angle_code = s.angle_code ∧
    (s.outputs ew).total_steps = s.total_steps ∧ (s.outputs ew).coil_step.toNat = s.coil_step.val ∧
    (s.outputs ew).gate_cnt.toNat = s.gate_cnt.val ∧
    (s.outputs ew).fire = (!ew.getLsbD 11 && ew.getLsbD 10 && decide (s.gate_cnt.val = Config.motorDiv - 1)) ∧
    (s.outputs ew).plan_en = s.plan.en ∧ (s.outputs ew).plan_dir = (if s.plan.dir = .cw then 0#1 else 1#1) ∧
    (s.outputs ew).steps_cw = s.plan.stepsCw ∧ (s.outputs ew).steps_ccw = s.plan.stepsCcw ∧
    (s.outputs ew).step_count = (if s.plan.dir = .cw then s.plan.stepsCw else s.plan.stepsCcw) ∧
    (s.outputs ew).frame.length = 10 ∧ ∀ i : Fin 10, (s.outputs ew).frame[i.val]? = some (Memory.read s.frame i)

/-- The canonical form of the frame buffer, which is the MODEL's own (notes/assumptions/9.md), is one form per content: two
buffers in it that read alike are equal data. -/
def Obligations.EqualFramesAreEqualData : Prop :=
  ∀ m n : Memory, Memory.wf m = true → Memory.wf n = true → (∀ i, Memory.read m i = Memory.read n i) → m = n

/-- The MODEL's choice (notes/assumptions/20.md): a case of the planner asked for on any code, also one outside its range, shows the
outputs that its rule's arithmetic gives there and writes no register. -/
def Obligations.PlanCaseShowsItsOutputsOnAnyCode : Prop :=
  ∀ (A : AngleCode) (s : State),
    exec (.planNone A) s = .next { s with ports := { s.ports with
      plan := { en := false, dir := if A.toNat ≤ 8192 then .cw else .ccw, stepsCw := 0, stepsCcw := 0 } } } ∧
    exec (.planCw A) s = .next { s with ports := { s.ports with
      plan := { en := true, dir := .cw, stepsCw := BitVec.ofNat 5 (A.toNat / 512), stepsCcw := 0 } } } ∧
    exec (.planCcw A) s = .next { s with ports := { s.ports with
      plan := { en := true, dir := .ccw, stepsCw := 0,
                stepsCcw := BitVec.ofNat 5 ((A.toNat + 8192) % 16384 / 512) } } }

/-- R142 and U4, with R130 at the degree level: an angle is admitted exactly in [0, 360), as it is and not clamped; for every
admitted angle motion is enabled exactly from 11.25 to 348.75, at most one count is nonzero, `steps_cw` never exceeds 16 and
`steps_ccw` never 15. That an angle outside is refused, and not clamped, is the model's way to restrict the domain
(notes/assumptions/22.md). -/
def Obligations.DegreePlannerTakesOnlyZeroTo360 : Prop :=
  (∀ w : ℚ, (∃ a : WindAngle, WindAngle.ofDegrees? w = some a ∧ a.deg = w) ↔ 0 ≤ w ∧ w < 360) ∧
    (∀ w : ℚ, WindAngle.ofDegrees? w = none ↔ w < 0 ∨ 360 ≤ w) ∧
    ∀ a : WindAngle,
      ((planOfDegrees a).enabled = true ↔ 45 / 4 ≤ a.deg ∧ a.deg ≤ 1395 / 4) ∧
      ((planOfDegrees a).stepsCw ≠ 0 → (planOfDegrees a).direction = some .cw ∧ (planOfDegrees a).stepsCcw = 0) ∧
      ((planOfDegrees a).stepsCcw ≠ 0 → (planOfDegrees a).direction = some .ccw ∧ (planOfDegrees a).stepsCw = 0) ∧
      (planOfDegrees a).stepsCw ≤ 16 ∧ (planOfDegrees a).stepsCcw ≤ 15
end

