-- ==== Sys2Proof/Laws/Memory.lean ====
section
/-! SUPPORT. The frame buffer: a read after a write, and the canonical form that every operation keeps. -/

namespace Sys2Proof.Machine

open Sys2Proof

theorem Memory.lookup_erase_self (m : Memory) (i : Nat) : Memory.lookup (Memory.erase m i) i = Memory.unlisted := by
  induction m with
  | nil => rfl
  | cons c rest ih =>
    obtain ⟨a, b⟩ := c
    by_cases h : a = i
    · simpa [Memory.erase, h] using ih
    · simpa [Memory.erase, Memory.lookup, h] using ih

theorem Memory.lookup_erase_other (m : Memory) (i j : Nat) (hj : j ≠ i) :
    Memory.lookup (Memory.erase m i) j = Memory.lookup m j := by
  induction m with
  | nil => rfl
  | cons c rest ih =>
    obtain ⟨a, b⟩ := c
    by_cases h : a = i
    · have : a ≠ j := fun e => hj (e.symm.trans h)
      simpa [Memory.erase, Memory.lookup, h, this, Ne.symm hj] using ih
    · by_cases h' : a = j
      · subst h'; simp [Memory.erase, Memory.lookup, h]
      · simpa [Memory.erase, Memory.lookup, h, h'] using ih

theorem Memory.lookup_insert_other (m : Memory) (i j : Nat) (b : Byte) (hj : j ≠ i) :
    Memory.lookup (Memory.insert m i b) j = Memory.lookup m j := by
  induction m with
  | nil => simp [Memory.insert, Memory.lookup, Ne.symm hj]
  | cons c rest ih =>
    obtain ⟨a, d⟩ := c
    by_cases h : a < i
    · simp only [Memory.insert, h, if_true, Memory.lookup]
      rw [ih]
    · simp [Memory.insert, Memory.lookup, h, Ne.symm hj]

theorem Memory.lookup_insert_self (m : Memory) (i : Nat) (b : Byte) (hm : ∀ c ∈ m, c.1 ≠ i) :
    Memory.lookup (Memory.insert m i b) i = b := by
  induction m with
  | nil => simp [Memory.insert, Memory.lookup]
  | cons c rest ih =>
    obtain ⟨a, d⟩ := c
    have ha : a ≠ i := hm (a, d) (by simp)
    by_cases h : a < i
    · simpa [Memory.insert, Memory.lookup, h, ha] using ih (fun c hc => hm c (by simp [hc]))
    · simp [Memory.insert, Memory.lookup, h]

theorem Memory.erase_index_ne (m : Memory) (i : Nat) : ∀ c ∈ Memory.erase m i, c.1 ≠ i := by
  induction m with
  | nil => simp [Memory.erase]
  | cons c rest ih =>
    obtain ⟨a, b⟩ := c
    by_cases h : a = i
    · simpa [Memory.erase, h] using ih
    · intro c hc
      simp only [Memory.erase, h, if_false, List.mem_cons] at hc
      rcases hc with rfl | hc
      · exact h
      · exact ih c hc

/-- A read at the index just written gives the byte written (R11). -/
@[simp] theorem Memory.read_write_same (m : Memory) (i : Fin Config.frameLen) (b : Byte) :
    Memory.read (Memory.write m i b) i = b := by
  unfold Memory.read Memory.write
  split
  · next h => rw [Memory.lookup_erase_self, h]
  · exact Memory.lookup_insert_self _ _ _ (Memory.erase_index_ne m i.val)

/-- A write leaves every other byte alone (R11). -/
@[simp] theorem Memory.read_write_other (m : Memory) (i j : Fin Config.frameLen) (b : Byte) (h : j ≠ i) :
    Memory.read (Memory.write m i b) j = Memory.read m j := by
  have hv : j.val ≠ i.val := fun e => h (Fin.ext e)
  unfold Memory.read Memory.write
  split
  · exact Memory.lookup_erase_other _ _ _ hv
  · rw [Memory.lookup_insert_other _ _ _ _ hv, Memory.lookup_erase_other _ _ _ hv]

theorem Memory.wfFrom_mono (m : Memory) (lo lo' : Nat) (h : lo' ≤ lo) (hm : Memory.wfFrom lo m = true) :
    Memory.wfFrom lo' m = true := by
  cases m with
  | nil => rfl
  | cons c rest =>
    obtain ⟨a, b⟩ := c
    simp only [Memory.wfFrom, Bool.and_eq_true, decide_eq_true_eq] at hm ⊢
    exact ⟨⟨⟨Nat.le_trans h hm.1.1.1, hm.1.1.2⟩, hm.1.2⟩, hm.2⟩

theorem Memory.erase_wfFrom (m : Memory) (lo i : Nat) (hm : Memory.wfFrom lo m = true) :
    Memory.wfFrom lo (Memory.erase m i) = true := by
  induction m generalizing lo with
  | nil => rfl
  | cons c rest ih =>
    obtain ⟨a, b⟩ := c
    simp only [Memory.wfFrom, Bool.and_eq_true, decide_eq_true_eq] at hm
    by_cases h : a = i
    · simp only [Memory.erase, h, if_true]
      exact Memory.wfFrom_mono _ (a + 1) lo (by omega) (ih (a + 1) hm.2)
    · simp only [Memory.erase, h, if_false, Memory.wfFrom, Bool.and_eq_true, decide_eq_true_eq]
      exact ⟨hm.1, ih (a + 1) hm.2⟩

theorem Memory.insert_wfFrom (m : Memory) (lo i : Nat) (b : Byte) (hlo : lo ≤ i) (hi : i < Config.frameLen)
    (hb : b ≠ Memory.unlisted) (hne : ∀ c ∈ m, c.1 ≠ i) (hm : Memory.wfFrom lo m = true) :
    Memory.wfFrom lo (Memory.insert m i b) = true := by
  induction m generalizing lo with
  | nil => simp [Memory.insert, Memory.wfFrom, hlo, hi, hb]
  | cons c rest ih =>
    obtain ⟨a, d⟩ := c
    have ha : a ≠ i := hne (a, d) (by simp)
    simp only [Memory.wfFrom, Bool.and_eq_true, decide_eq_true_eq] at hm
    by_cases h : a < i
    · simp only [Memory.insert, h, if_true, Memory.wfFrom, Bool.and_eq_true, decide_eq_true_eq]
      exact ⟨hm.1, ih (a + 1) (by omega) (fun c hc => hne c (by simp [hc])) hm.2⟩
    · simp only [Memory.insert, h, if_false, Memory.wfFrom, Bool.and_eq_true, decide_eq_true_eq]
      exact ⟨⟨⟨hlo, hi⟩, hb⟩, ⟨⟨by omega, hm.1.1.2⟩, hm.1.2⟩, hm.2⟩

/-- Every write keeps the canonical form; it is the only operation that changes the frame buffer. -/
theorem Memory.write_wf (m : Memory) (i : Fin Config.frameLen) (b : Byte) (hm : Memory.wf m = true) :
    Memory.wf (Memory.write m i b) = true := by
  unfold Memory.wf Memory.write at *
  split
  · exact Memory.erase_wfFrom _ _ _ hm
  · next hb =>
    exact Memory.insert_wfFrom _ _ _ _ (Nat.zero_le _) i.isLt hb (Memory.erase_index_ne m i.val)
      (Memory.erase_wfFrom _ _ _ hm)

/-- The frame buffer after reset is in canonical form. -/
theorem Memory.reset_wf : Memory.wf State.reset.frame = true := rfl

/-- Every byte reads 0x00 after reset (R38). -/
theorem Memory.reset_read (i : Fin Config.frameLen) : Memory.read State.reset.frame i = 0x00#8 := rfl

end Sys2Proof.Machine
end

