-- ==== Sys2Proof/Laws/State.lean ====
section
/-! SUPPORT. One lemma per field per update of the state, true by rfl, so that no later proof unfolds a record update. -/

namespace Sys2Proof.Machine

open Sys2Proof

variable (s : State)

/-! ### `State.takeWord` -/

@[simp] theorem State.takeWord_gate_cnt : s.takeWord.gate_cnt = s.gate_cnt := rfl
@[simp] theorem State.takeWord_coil_step : s.takeWord.coil_step = s.coil_step := rfl
@[simp] theorem State.takeWord_coil : s.takeWord.coil = s.coil := rfl
@[simp] theorem State.takeWord_total_steps : s.takeWord.total_steps = s.total_steps := rfl
@[simp] theorem State.takeWord_k : s.takeWord.k = s.k := rfl
@[simp] theorem State.takeWord_busy : s.takeWord.busy = s.busy := rfl
@[simp] theorem State.takeWord_sel_n : s.takeWord.sel_n = s.sel_n := rfl
@[simp] theorem State.takeWord_frame : s.takeWord.frame = s.frame := rfl
@[simp] theorem State.takeWord_angle_code : s.takeWord.angle_code = s.angle_code := rfl
@[simp] theorem State.takeWord_stimulus : s.takeWord.stimulus = s.stimulus.drop 1 := rfl
@[simp] theorem State.takeWord_ports : s.takeWord.ports = s.ports := rfl

/-! ### `State.driveFire` -/

@[simp] theorem State.driveFire_gate_cnt (b : Bool) : (s.driveFire b).gate_cnt = s.gate_cnt := rfl
@[simp] theorem State.driveFire_coil_step (b : Bool) : (s.driveFire b).coil_step = s.coil_step := rfl
@[simp] theorem State.driveFire_coil (b : Bool) : (s.driveFire b).coil = s.coil := rfl
@[simp] theorem State.driveFire_total_steps (b : Bool) : (s.driveFire b).total_steps = s.total_steps := rfl
@[simp] theorem State.driveFire_k (b : Bool) : (s.driveFire b).k = s.k := rfl
@[simp] theorem State.driveFire_busy (b : Bool) : (s.driveFire b).busy = s.busy := rfl
@[simp] theorem State.driveFire_sel_n (b : Bool) : (s.driveFire b).sel_n = s.sel_n := rfl
@[simp] theorem State.driveFire_frame (b : Bool) : (s.driveFire b).frame = s.frame := rfl
@[simp] theorem State.driveFire_angle_code (b : Bool) : (s.driveFire b).angle_code = s.angle_code := rfl
@[simp] theorem State.driveFire_stimulus (b : Bool) : (s.driveFire b).stimulus = s.stimulus := rfl
@[simp] theorem State.driveFire_ports (b : Bool) : (s.driveFire b).ports = { s.ports with fire := b } := rfl

/-! ### `State.drivePlan` -/

@[simp] theorem State.drivePlan_gate_cnt (p : Plan) : (s.drivePlan p).gate_cnt = s.gate_cnt := rfl
@[simp] theorem State.drivePlan_coil_step (p : Plan) : (s.drivePlan p).coil_step = s.coil_step := rfl
@[simp] theorem State.drivePlan_coil (p : Plan) : (s.drivePlan p).coil = s.coil := rfl
@[simp] theorem State.drivePlan_total_steps (p : Plan) : (s.drivePlan p).total_steps = s.total_steps := rfl
@[simp] theorem State.drivePlan_k (p : Plan) : (s.drivePlan p).k = s.k := rfl
@[simp] theorem State.drivePlan_busy (p : Plan) : (s.drivePlan p).busy = s.busy := rfl
@[simp] theorem State.drivePlan_sel_n (p : Plan) : (s.drivePlan p).sel_n = s.sel_n := rfl
@[simp] theorem State.drivePlan_frame (p : Plan) : (s.drivePlan p).frame = s.frame := rfl
@[simp] theorem State.drivePlan_angle_code (p : Plan) : (s.drivePlan p).angle_code = s.angle_code := rfl
@[simp] theorem State.drivePlan_stimulus (p : Plan) : (s.drivePlan p).stimulus = s.stimulus := rfl
@[simp] theorem State.drivePlan_ports (p : Plan) : (s.drivePlan p).ports = { s.ports with plan := p } := rfl

/-! ### `State.setGate` -/

@[simp] theorem State.setGate_gate_cnt (c : Fin Config.motorDiv) : (s.setGate c).gate_cnt = c := rfl
@[simp] theorem State.setGate_coil_step (c : Fin Config.motorDiv) : (s.setGate c).coil_step = s.coil_step := rfl
@[simp] theorem State.setGate_coil (c : Fin Config.motorDiv) : (s.setGate c).coil = s.coil := rfl
@[simp] theorem State.setGate_total_steps (c : Fin Config.motorDiv) : (s.setGate c).total_steps = s.total_steps := rfl
@[simp] theorem State.setGate_k (c : Fin Config.motorDiv) : (s.setGate c).k = s.k := rfl
@[simp] theorem State.setGate_busy (c : Fin Config.motorDiv) : (s.setGate c).busy = s.busy := rfl
@[simp] theorem State.setGate_sel_n (c : Fin Config.motorDiv) : (s.setGate c).sel_n = s.sel_n := rfl
@[simp] theorem State.setGate_frame (c : Fin Config.motorDiv) : (s.setGate c).frame = s.frame := rfl
@[simp] theorem State.setGate_angle_code (c : Fin Config.motorDiv) : (s.setGate c).angle_code = s.angle_code := rfl
@[simp] theorem State.setGate_stimulus (c : Fin Config.motorDiv) : (s.setGate c).stimulus = s.stimulus := rfl
@[simp] theorem State.setGate_ports (c : Fin Config.motorDiv) : (s.setGate c).ports = s.ports := rfl

/-! ### `State.advanceGate` -/

@[simp] theorem State.advanceGate_gate_cnt : s.advanceGate.gate_cnt = (gateTick s.gate_cnt).1 := rfl
@[simp] theorem State.advanceGate_coil_step : s.advanceGate.coil_step = s.coil_step := rfl
@[simp] theorem State.advanceGate_coil : s.advanceGate.coil = s.coil := rfl
@[simp] theorem State.advanceGate_total_steps : s.advanceGate.total_steps = s.total_steps := rfl
@[simp] theorem State.advanceGate_k : s.advanceGate.k = s.k := rfl
@[simp] theorem State.advanceGate_busy : s.advanceGate.busy = s.busy := rfl
@[simp] theorem State.advanceGate_sel_n : s.advanceGate.sel_n = s.sel_n := rfl
@[simp] theorem State.advanceGate_frame : s.advanceGate.frame = s.frame := rfl
@[simp] theorem State.advanceGate_angle_code : s.advanceGate.angle_code = s.angle_code := rfl
@[simp] theorem State.advanceGate_stimulus : s.advanceGate.stimulus = s.stimulus := rfl
@[simp] theorem State.advanceGate_ports : s.advanceGate.ports = { s.ports with fire := (gateTick s.gate_cnt).2 } := rfl

/-! ### `State.stepCoil` -/

@[simp] theorem State.stepCoil_gate_cnt (d : Direction) : (s.stepCoil d).gate_cnt = s.gate_cnt := rfl
@[simp] theorem State.stepCoil_coil_step (d : Direction) : (s.stepCoil d).coil_step = s.coil_step + 1 := rfl
@[simp] theorem State.stepCoil_coil (d : Direction) : (s.stepCoil d).coil = coilEntry d s.coil_step := rfl
@[simp] theorem State.stepCoil_total_steps (d : Direction) : (s.stepCoil d).total_steps = s.total_steps.next := rfl
@[simp] theorem State.stepCoil_k (d : Direction) : (s.stepCoil d).k = s.k := rfl
@[simp] theorem State.stepCoil_busy (d : Direction) : (s.stepCoil d).busy = s.busy := rfl
@[simp] theorem State.stepCoil_sel_n (d : Direction) : (s.stepCoil d).sel_n = s.sel_n := rfl
@[simp] theorem State.stepCoil_frame (d : Direction) : (s.stepCoil d).frame = s.frame := rfl
@[simp] theorem State.stepCoil_angle_code (d : Direction) : (s.stepCoil d).angle_code = s.angle_code := rfl
@[simp] theorem State.stepCoil_stimulus (d : Direction) : (s.stepCoil d).stimulus = s.stimulus := rfl
@[simp] theorem State.stepCoil_ports (d : Direction) : (s.stepCoil d).ports = s.ports := rfl

/-! ### `State.beginPoll` -/

@[simp] theorem State.beginPoll_gate_cnt : s.beginPoll.gate_cnt = s.gate_cnt := rfl
@[simp] theorem State.beginPoll_coil_step : s.beginPoll.coil_step = s.coil_step := rfl
@[simp] theorem State.beginPoll_coil : s.beginPoll.coil = s.coil := rfl
@[simp] theorem State.beginPoll_total_steps : s.beginPoll.total_steps = s.total_steps := rfl
@[simp] theorem State.beginPoll_k : s.beginPoll.k = s.k := rfl
@[simp] theorem State.beginPoll_busy : s.beginPoll.busy = true := rfl
@[simp] theorem State.beginPoll_sel_n : s.beginPoll.sel_n = if s.k.val = 0 then false else if s.k.val = Config.frameLen then true else s.sel_n := rfl
@[simp] theorem State.beginPoll_frame : s.beginPoll.frame = s.frame := rfl
@[simp] theorem State.beginPoll_angle_code : s.beginPoll.angle_code = s.angle_code := rfl
@[simp] theorem State.beginPoll_stimulus : s.beginPoll.stimulus = s.stimulus := rfl
@[simp] theorem State.beginPoll_ports : s.beginPoll.ports = s.ports := rfl

/-! ### `State.storeByte` -/

@[simp] theorem State.storeByte_gate_cnt (i : Fin Config.frameLen) (b : Byte) : (s.storeByte i b).gate_cnt = s.gate_cnt := rfl
@[simp] theorem State.storeByte_coil_step (i : Fin Config.frameLen) (b : Byte) : (s.storeByte i b).coil_step = s.coil_step := rfl
@[simp] theorem State.storeByte_coil (i : Fin Config.frameLen) (b : Byte) : (s.storeByte i b).coil = s.coil := rfl
@[simp] theorem State.storeByte_total_steps (i : Fin Config.frameLen) (b : Byte) : (s.storeByte i b).total_steps = s.total_steps := rfl
@[simp] theorem State.storeByte_k (i : Fin Config.frameLen) (b : Byte) : (s.storeByte i b).k = s.k := rfl
@[simp] theorem State.storeByte_busy (i : Fin Config.frameLen) (b : Byte) : (s.storeByte i b).busy = s.busy := rfl
@[simp] theorem State.storeByte_sel_n (i : Fin Config.frameLen) (b : Byte) : (s.storeByte i b).sel_n = s.sel_n := rfl
@[simp] theorem State.storeByte_frame (i : Fin Config.frameLen) (b : Byte) : (s.storeByte i b).frame = Memory.write s.frame i b := rfl
@[simp] theorem State.storeByte_angle_code (i : Fin Config.frameLen) (b : Byte) : (s.storeByte i b).angle_code = s.angle_code := rfl
@[simp] theorem State.storeByte_stimulus (i : Fin Config.frameLen) (b : Byte) : (s.storeByte i b).stimulus = s.stimulus := rfl
@[simp] theorem State.storeByte_ports (i : Fin Config.frameLen) (b : Byte) : (s.storeByte i b).ports = s.ports := rfl

/-! ### `State.endPoll` -/

@[simp] theorem State.endPoll_gate_cnt (k : Fin (Config.frameLen + 1)) : (s.endPoll k).gate_cnt = s.gate_cnt := rfl
@[simp] theorem State.endPoll_coil_step (k : Fin (Config.frameLen + 1)) : (s.endPoll k).coil_step = s.coil_step := rfl
@[simp] theorem State.endPoll_coil (k : Fin (Config.frameLen + 1)) : (s.endPoll k).coil = s.coil := rfl
@[simp] theorem State.endPoll_total_steps (k : Fin (Config.frameLen + 1)) : (s.endPoll k).total_steps = s.total_steps := rfl
@[simp] theorem State.endPoll_k (k : Fin (Config.frameLen + 1)) : (s.endPoll k).k = k := rfl
@[simp] theorem State.endPoll_busy (k : Fin (Config.frameLen + 1)) : (s.endPoll k).busy = false := rfl
@[simp] theorem State.endPoll_sel_n (k : Fin (Config.frameLen + 1)) : (s.endPoll k).sel_n = s.sel_n := rfl
@[simp] theorem State.endPoll_frame (k : Fin (Config.frameLen + 1)) : (s.endPoll k).frame = s.frame := rfl
@[simp] theorem State.endPoll_angle_code (k : Fin (Config.frameLen + 1)) : (s.endPoll k).angle_code = s.angle_code := rfl
@[simp] theorem State.endPoll_stimulus (k : Fin (Config.frameLen + 1)) : (s.endPoll k).stimulus = s.stimulus := rfl
@[simp] theorem State.endPoll_ports (k : Fin (Config.frameLen + 1)) : (s.endPoll k).ports = s.ports := rfl

/-! ### `State.commitAngle` -/

@[simp] theorem State.commitAngle_gate_cnt : s.commitAngle.gate_cnt = s.gate_cnt := rfl
@[simp] theorem State.commitAngle_coil_step : s.commitAngle.coil_step = s.coil_step := rfl
@[simp] theorem State.commitAngle_coil : s.commitAngle.coil = s.coil := rfl
@[simp] theorem State.commitAngle_total_steps : s.commitAngle.total_steps = s.total_steps := rfl
@[simp] theorem State.commitAngle_k : s.commitAngle.k = s.k := rfl
@[simp] theorem State.commitAngle_busy : s.commitAngle.busy = s.busy := rfl
@[simp] theorem State.commitAngle_sel_n : s.commitAngle.sel_n = s.sel_n := rfl
@[simp] theorem State.commitAngle_frame : s.commitAngle.frame = s.frame := rfl
@[simp] theorem State.commitAngle_angle_code : s.commitAngle.angle_code = if s.valid then rawCode (rawField s.frame) else s.angle_code := rfl
@[simp] theorem State.commitAngle_stimulus : s.commitAngle.stimulus = s.stimulus := rfl
@[simp] theorem State.commitAngle_ports : s.commitAngle.ports = s.ports := rfl

/-! ### `State.toReset` -/

@[simp] theorem State.toReset_gate_cnt : s.toReset.gate_cnt = 0 := rfl
@[simp] theorem State.toReset_coil_step : s.toReset.coil_step = 0 := rfl
@[simp] theorem State.toReset_coil : s.toReset.coil = .off := rfl
@[simp] theorem State.toReset_total_steps : s.toReset.total_steps = ⟨s.totalW, 0⟩ := rfl
@[simp] theorem State.toReset_k : s.toReset.k = 0 := rfl
@[simp] theorem State.toReset_busy : s.toReset.busy = false := rfl
@[simp] theorem State.toReset_sel_n : s.toReset.sel_n = true := rfl
@[simp] theorem State.toReset_frame : s.toReset.frame = [] := rfl
@[simp] theorem State.toReset_angle_code : s.toReset.angle_code = 0#14 := rfl
@[simp] theorem State.toReset_stimulus : s.toReset.stimulus = s.stimulus := rfl
@[simp] theorem State.toReset_ports :
    s.toReset.ports = { fire := false, plan := { en := false, dir := .cw, stepsCw := 0#5, stepsCcw := 0#5 } } := rfl

/-! ### `joinBlocks` -/

@[simp] theorem joinBlocks_gate_cnt (g l : State) : (joinBlocks g l).gate_cnt = g.gate_cnt := rfl
@[simp] theorem joinBlocks_coil_step (g l : State) : (joinBlocks g l).coil_step = g.coil_step := rfl
@[simp] theorem joinBlocks_coil (g l : State) : (joinBlocks g l).coil = g.coil := rfl
@[simp] theorem joinBlocks_total_steps (g l : State) : (joinBlocks g l).total_steps = g.total_steps := rfl
@[simp] theorem joinBlocks_k (g l : State) : (joinBlocks g l).k = l.k := rfl
@[simp] theorem joinBlocks_busy (g l : State) : (joinBlocks g l).busy = l.busy := rfl
@[simp] theorem joinBlocks_sel_n (g l : State) : (joinBlocks g l).sel_n = l.sel_n := rfl
@[simp] theorem joinBlocks_frame (g l : State) : (joinBlocks g l).frame = l.frame := rfl
@[simp] theorem joinBlocks_angle_code (g l : State) : (joinBlocks g l).angle_code = l.angle_code := rfl
@[simp] theorem joinBlocks_stimulus (g l : State) : (joinBlocks g l).stimulus = g.stimulus := rfl
@[simp] theorem joinBlocks_ports (g l : State) : (joinBlocks g l).ports = g.ports := rfl

/-! ### Conditions that read registers an update leaves alone -/

@[simp] theorem State.takeWord_plan : s.takeWord.plan = s.plan := rfl
@[simp] theorem State.driveFire_plan (b : Bool) : (s.driveFire b).plan = s.plan := rfl
@[simp] theorem State.drivePlan_plan (p : Plan) : (s.drivePlan p).plan = s.plan := rfl
@[simp] theorem State.setGate_plan (c : Fin Config.motorDiv) : (s.setGate c).plan = s.plan := rfl
@[simp] theorem State.advanceGate_plan : s.advanceGate.plan = s.plan := rfl
@[simp] theorem State.stepCoil_plan (d : Direction) : (s.stepCoil d).plan = s.plan := rfl
@[simp] theorem State.beginPoll_plan : s.beginPoll.plan = s.plan := rfl
@[simp] theorem State.storeByte_plan (i : Fin Config.frameLen) (b : Byte) : (s.storeByte i b).plan = s.plan := rfl
@[simp] theorem State.endPoll_plan (k : Fin (Config.frameLen + 1)) : (s.endPoll k).plan = s.plan := rfl
@[simp] theorem State.takeWord_planEn : s.takeWord.planEn = s.planEn := rfl
@[simp] theorem State.driveFire_planEn (b : Bool) : (s.driveFire b).planEn = s.planEn := rfl
@[simp] theorem State.drivePlan_planEn (p : Plan) : (s.drivePlan p).planEn = s.planEn := rfl
@[simp] theorem State.setGate_planEn (c : Fin Config.motorDiv) : (s.setGate c).planEn = s.planEn := rfl
@[simp] theorem State.advanceGate_planEn : s.advanceGate.planEn = s.planEn := rfl
@[simp] theorem State.stepCoil_planEn (d : Direction) : (s.stepCoil d).planEn = s.planEn := rfl
@[simp] theorem State.beginPoll_planEn : s.beginPoll.planEn = s.planEn := rfl
@[simp] theorem State.storeByte_planEn (i : Fin Config.frameLen) (b : Byte) : (s.storeByte i b).planEn = s.planEn := rfl
@[simp] theorem State.endPoll_planEn (k : Fin (Config.frameLen + 1)) : (s.endPoll k).planEn = s.planEn := rfl
@[simp] theorem State.takeWord_budget : s.takeWord.budget = s.budget := rfl
@[simp] theorem State.driveFire_budget (b : Bool) : (s.driveFire b).budget = s.budget := rfl
@[simp] theorem State.drivePlan_budget (p : Plan) : (s.drivePlan p).budget = s.budget := rfl
@[simp] theorem State.setGate_budget (c : Fin Config.motorDiv) : (s.setGate c).budget = s.budget := rfl
@[simp] theorem State.advanceGate_budget : s.advanceGate.budget = s.budget := rfl
@[simp] theorem State.stepCoil_budget (d : Direction) : (s.stepCoil d).budget = s.budget := rfl
@[simp] theorem State.beginPoll_budget : s.beginPoll.budget = s.budget := rfl
@[simp] theorem State.storeByte_budget (i : Fin Config.frameLen) (b : Byte) : (s.storeByte i b).budget = s.budget := rfl
@[simp] theorem State.endPoll_budget (k : Fin (Config.frameLen + 1)) : (s.endPoll k).budget = s.budget := rfl
@[simp] theorem State.takeWord_gateLast : s.takeWord.gateLast = s.gateLast := rfl
@[simp] theorem State.driveFire_gateLast (b : Bool) : (s.driveFire b).gateLast = s.gateLast := rfl
@[simp] theorem State.drivePlan_gateLast (p : Plan) : (s.drivePlan p).gateLast = s.gateLast := rfl
@[simp] theorem State.stepCoil_gateLast (d : Direction) : (s.stepCoil d).gateLast = s.gateLast := rfl
@[simp] theorem State.beginPoll_gateLast : s.beginPoll.gateLast = s.gateLast := rfl
@[simp] theorem State.storeByte_gateLast (i : Fin Config.frameLen) (b : Byte) : (s.storeByte i b).gateLast = s.gateLast := rfl
@[simp] theorem State.endPoll_gateLast (k : Fin (Config.frameLen + 1)) : (s.endPoll k).gateLast = s.gateLast := rfl
@[simp] theorem State.commitAngle_gateLast : s.commitAngle.gateLast = s.gateLast := rfl
@[simp] theorem State.takeWord_valid : s.takeWord.valid = s.valid := rfl
@[simp] theorem State.driveFire_valid (b : Bool) : (s.driveFire b).valid = s.valid := rfl
@[simp] theorem State.drivePlan_valid (p : Plan) : (s.drivePlan p).valid = s.valid := rfl
@[simp] theorem State.setGate_valid (c : Fin Config.motorDiv) : (s.setGate c).valid = s.valid := rfl
@[simp] theorem State.advanceGate_valid : s.advanceGate.valid = s.valid := rfl
@[simp] theorem State.stepCoil_valid (d : Direction) : (s.stepCoil d).valid = s.valid := rfl
@[simp] theorem State.beginPoll_valid : s.beginPoll.valid = s.valid := rfl
@[simp] theorem State.endPoll_valid (k : Fin (Config.frameLen + 1)) : (s.endPoll k).valid = s.valid := rfl
@[simp] theorem State.commitAngle_valid : s.commitAngle.valid = s.valid := rfl
@[simp] theorem State.takeWord_planCase : s.takeWord.planCase = s.planCase := rfl
@[simp] theorem State.driveFire_planCase (b : Bool) : (s.driveFire b).planCase = s.planCase := rfl
@[simp] theorem State.drivePlan_planCase (p : Plan) : (s.drivePlan p).planCase = s.planCase := rfl
@[simp] theorem State.setGate_planCase (c : Fin Config.motorDiv) : (s.setGate c).planCase = s.planCase := rfl
@[simp] theorem State.advanceGate_planCase : s.advanceGate.planCase = s.planCase := rfl
@[simp] theorem State.stepCoil_planCase (d : Direction) : (s.stepCoil d).planCase = s.planCase := rfl
@[simp] theorem State.beginPoll_planCase : s.beginPoll.planCase = s.planCase := rfl
@[simp] theorem State.storeByte_planCase (i : Fin Config.frameLen) (b : Byte) : (s.storeByte i b).planCase = s.planCase := rfl
@[simp] theorem State.endPoll_planCase (k : Fin (Config.frameLen + 1)) : (s.endPoll k).planCase = s.planCase := rfl

end Sys2Proof.Machine
end

