-- ==== Sys2Proof/Laws/Ops.lean ====
section
/-! SUPPORT. For each shared operation one lemma that says everything it can do. -/

namespace Sys2Proof.Machine

open Sys2Proof

/-- One raw tick of a gate: it counts up without firing, or it fires and returns to 0 (R100). -/
theorem gateTick_cases {N : Nat} (c : Fin N) :
    (c.val + 1 < N ∧ (gateTick c).1.val = c.val + 1 ∧ (gateTick c).2 = false) ∨
      (c.val + 1 = N ∧ (gateTick c).1.val = 0 ∧ (gateTick c).2 = true) := by
  unfold gateTick
  split
  · next h => exact .inl ⟨h, rfl, rfl⟩
  · next h => exact .inr ⟨by have := c.isLt; omega, rfl, rfl⟩

theorem State.gateLast_iff (s : State) : s.gateLast = true ↔ s.gate_cnt.val + 1 = Config.motorDiv := by
  simp [State.gateLast]

/-- The motor step (R150): it holds, or it takes one coil step in the plan's direction. -/
theorem State.motorStep_cases (p : Plan) (s : State) :
    (p.en = false ∧ s.motorStep p = s) ∨
      (p.en = true ∧ p.stepCount = 0 ∧ s.motorStep p = s) ∨
      (p.en = true ∧ p.stepCount ≠ 0 ∧ s.motorStep p = s.stepCoil p.dir) := by
  unfold State.motorStep
  cases he : p.en
  · exact .inl ⟨rfl, rfl⟩
  · by_cases hb : p.stepCount = 0
    · exact .inr (.inl ⟨rfl, hb, by rw [if_neg (by simp), if_neg (by simp [hb])]⟩)
    · exact .inr (.inr ⟨rfl, hb, by rw [if_neg (by simp), if_pos hb]⟩)

/-- The motor step writes only `coil_step`, `coil` and `total_steps` (R34). -/
theorem State.motorStep_frame (p : Plan) (s : State) :
    (s.motorStep p).gate_cnt = s.gate_cnt ∧ (s.motorStep p).k = s.k ∧ (s.motorStep p).busy = s.busy ∧
      (s.motorStep p).sel_n = s.sel_n ∧ (s.motorStep p).frame = s.frame ∧
      (s.motorStep p).angle_code = s.angle_code ∧ (s.motorStep p).stimulus = s.stimulus ∧
      (s.motorStep p).ports = s.ports := by
  rcases s.motorStep_cases p with ⟨_, h⟩ | ⟨_, _, h⟩ | ⟨_, _, h⟩ <;> rw [h] <;> simp

/-- Each value that `coil` can hold drives the bits of R35 (e), and different values drive different bits. -/
theorem Coil.bits_cases (c : Coil) :
    c.bits = 0x0#4 ∨ c.bits = 0x3#4 ∨ c.bits = 0x6#4 ∨ c.bits = 0xC#4 ∨ c.bits = 0x9#4 := by
  cases c <;> decide

theorem Coil.bits_inj (c d : Coil) (h : c.bits = d.bits) : c = d := by
  revert h; cases c <;> cases d <;> decide

theorem coilEntry_ne_off (d : Direction) (i : Fin Config.coilPhases) : coilEntry d i ≠ .off := by
  cases d <;> revert i <;> decide

@[simp] theorem StepCounter.next_width (c : StepCounter) : c.next.width = c.width := rfl

/-- The counter counts modulo `2^TOTAL_W`, for every width (R148). -/
theorem StepCounter.next_count (c : StepCounter) : c.next.count.toNat = (c.count.toNat + 1) % 2 ^ c.width := by
  show (c.count + 1).toNat = _
  rw [BitVec.toNat_add]; simp

/-- A number of degrees is refused exactly outside [0, 360) (R142). -/
theorem WindAngle.ofDegrees?_eq_none (w : ℚ) : WindAngle.ofDegrees? w = none ↔ ¬ (0 ≤ w ∧ w < 360) := by
  unfold WindAngle.ofDegrees?; split <;> simp [*]

/-- The table of one direction is the other's in reverse index order (R80). -/
theorem coilTable_ccw (i : Fin Config.coilPhases) : coilTable .ccw i = coilTable .cw (3 - i) := by
  revert i; decide

/-- The planner's function is the case that the code selects (R72, R136, R138, R139). -/
theorem planOf_cases (A : AngleCode) :
    (inDeadBand A = true ∧ planVariant A = .planNone A ∧ planOf A = planNoneOutputs A) ∨
      (inCwRange A = true ∧ planVariant A = .planCw A ∧ planOf A = planCwOutputs A) ∨
      (inCcwRange A = true ∧ planVariant A = .planCcw A ∧ planOf A = planCcwOutputs A) := by
  by_cases h1 : A.toNat < Config.stepCode
  · have h2 : ¬ Config.stepCode ≤ A.toNat := by omega
    simp [inDeadBand, planVariant, planOf, planEnabled, planNoneOutputs, h1, h2]
  · by_cases h3 : Config.topCode < A.toNat
    · have h4 : ¬ A.toNat ≤ Config.topCode := by omega
      simp [inDeadBand, planVariant, planOf, planEnabled, planNoneOutputs, h1, h3, h4]
    · have h2 : Config.stepCode ≤ A.toNat := by omega
      have h4 : A.toNat ≤ Config.topCode := by omega
      right
      by_cases h5 : A.toNat ≤ Config.halfCode
      · have h6 : ¬ Config.halfCode < A.toNat := by omega
        left
        simp [inCwRange, inDeadBand, planVariant, planOf, planEnabled, planDirection, planCwOutputs, h1, h2, h3, h4, h5, h6]
      · have h6 : Config.halfCode < A.toNat := by omega
        right
        simp [inCcwRange, inDeadBand, planVariant, planOf, planEnabled, planDirection, planCcwOutputs, h1, h2, h3, h4, h5, h6]

/-- Running the planner's case shows the plan of the `angle_code` held, and changes nothing else (R140). -/
theorem showPlan_eq (t : State) : showPlan t = .next (t.drivePlan t.plan) := by
  unfold showPlan State.planCase State.plan
  rcases planOf_cases t.angle_code with ⟨_, h, e⟩ | ⟨_, h, e⟩ | ⟨_, h, e⟩ <;> rw [h, e] <;> rfl

/-- What going on from an outcome can answer. -/
theorem andThen_eq_next (o : Host.Outcome State Fault Refusal) (f : State → Host.Outcome State Fault Refusal) (t : State) :
    andThen o f = .next t ↔ ∃ u, o = .next u ∧ f u = .next t := by
  cases o <;> simp [andThen]

@[simp] theorem andThen_next (u : State) (f : State → Host.Outcome State Fault Refusal) :
    andThen (.next u) f = f u := rfl

/-- What the parser's strobes select (R71 (3) and (4)). -/
theorem pollOp_cases (busy : Bool) (ew : EventWord) :
    (busy = true ∧ pollEndBit ew = true ∧ pollOp busy ew = some (.pollEnd (rxByte ew))) ∨
      (busy = false ∧ pollBeginBit ew = true ∧ pollOp busy ew = some .pollBegin) ∨
      (((busy = true ∧ pollEndBit ew = false) ∨ (busy = false ∧ pollBeginBit ew = false)) ∧ pollOp busy ew = none) := by
  cases busy <;> cases hb : pollBeginBit ew <;> cases he : pollEndBit ew <;> simp [pollOp, hb, he]

/-- The frame position's variant of a POLL_END (R72). -/
theorem linkVariant_cases (k : Fin (Config.frameLen + 1)) (rx : Byte) :
    (k.val = 0 ∧ linkVariant k rx = .linkSync0 rx) ∨ (k.val = 1 ∧ linkVariant k rx = .linkSync1 rx) ∨
      ((2 ≤ k.val ∧ k.val < Config.frameLen) ∧ linkVariant k rx = .linkData rx) ∨
      (k.val = Config.frameLen ∧ linkVariant k rx = .linkFinal) := by
  unfold linkVariant
  have := k.isLt
  by_cases h0 : k.val = 0
  · simp [h0]
  · by_cases h1 : k.val = 1
    · simp [h1]
    · by_cases h2 : k.val < Config.frameLen
      · simp [h0, h1, h2]; omega
      · simp [h0, h1, h2]; omega

end Sys2Proof.Machine
end

