-- ==== Sys2Proof/Laws/Edge.lean ====
section
/-! SUPPORT. One clock edge in closed form: which registers the tick gate's operation and the parser's operation write, and the
state they leave together. -/

namespace Sys2Proof.Machine

open Sys2Proof

/-- What the operation of the tick gate leaves of a state at an edge without `rst`. -/
def gateWrites (ew : EventWord) (s : State) : State :=
  if tickBit ew then (if s.gateLast then s.advanceGate.motorStep s.plan else s.advanceGate) else s

/-- What the operation of the sensor frame parser leaves of a state at an edge without `rst`. -/
def linkWrites (ew : EventWord) (s : State) : State :=
  if s.busy then
    if pollEndBit ew then
      if s.k.val = 0 then (s.storeByte 0 (rxByte ew)).endPoll 1
      else if s.k.val = 1 then (s.storeByte 1 (rxByte ew)).endPoll 2
      else if h : s.k.val < Config.frameLen then
        (s.storeByte ⟨s.k.val, h⟩ (rxByte ew)).endPoll ⟨s.k.val + 1, Nat.succ_lt_succ h⟩
      else s.commitAngle.endPoll 0
    else s
  else if pollBeginBit ew then s.beginPoll else s

/-- The state after an edge. -/
def edgeNext (ew : EventWord) (s : State) : State :=
  if rstBit ew then s.toReset
  else
    let u := joinBlocks (gateWrites ew (s.driveFire false)) (linkWrites ew (s.driveFire false))
    u.drivePlan u.plan

theorem exec_tick_variant (s : State) :
    exec (s.variant .tick) s = .next (if s.gateLast then s.advanceGate.motorStep s.plan else s.advanceGate) := by
  by_cases h : s.gate_cnt.val + 1 = Config.motorDiv
  · have h' : s.gateLast = true := (State.gateLast_iff s).2 h
    simp only [State.variant, gateVariant, h, if_true, exec, execGateFire, h']
  · have h' : s.gateLast = false := by
      rw [Bool.eq_false_iff]; exact fun e => h ((State.gateLast_iff s).1 e)
    simp only [State.variant, gateVariant, h, if_false, exec, execGateCount, h', Bool.false_eq_true]

theorem exec_pollEnd_variant (ew : EventWord) (s : State) (hb : s.busy = true) (hp : pollEndBit ew = true) :
    exec (s.variant (.pollEnd (rxByte ew))) s = .next (linkWrites ew s) := by
  have hk := s.k.isLt
  simp only [linkWrites, hb, hp, if_true, State.variant]
  rcases linkVariant_cases s.k (rxByte ew) with ⟨h, e⟩ | ⟨h, e⟩ | ⟨h, e⟩ | ⟨h, e⟩ <;> rw [e]
  · simp [exec, execLinkSync0, hb, h]
  · simp [exec, execLinkSync1, hb, h]
  · have h0 : s.k.val ≠ 0 := by omega
    have h1 : s.k.val ≠ 1 := by omega
    simp only [h0, h1, if_false, exec, execLinkData]
    rw [dif_pos ⟨hb, h⟩, dif_pos h.2]
  · have h0 : s.k.val ≠ 0 := by simp [h]
    have h1 : s.k.val ≠ 1 := by simp [h]
    have h2 : ¬ s.k.val < Config.frameLen := by simp [h]
    simp only [h0, h1, if_false, exec, execLinkFinal, dif_neg h2]
    simp [hb, h]

theorem exec_pollBegin_writes (ew : EventWord) (s : State) (hb : s.busy = false) (hp : pollBeginBit ew = true) :
    exec .pollBegin s = .next (linkWrites ew s) := by
  simp [exec, execPollBegin, linkWrites, hb, hp]

/-- The tick gate's operation leaves the parser's registers as they are (R34). -/
theorem joinBlocks_gateWrites (ew : EventWord) (s : State) : joinBlocks (gateWrites ew s) s = gateWrites ew s := by
  unfold gateWrites
  split
  · split
    · obtain ⟨-, h2, h3, h4, h5, h6, -, -⟩ := s.advanceGate.motorStep_frame s.plan
      simp only [State.advanceGate_k, State.advanceGate_busy, State.advanceGate_sel_n, State.advanceGate_frame,
        State.advanceGate_angle_code] at h2 h3 h4 h5 h6
      generalize s.advanceGate.motorStep s.plan = q at *
      unfold joinBlocks
      rw [← h2, ← h3, ← h4, ← h5, ← h6]
    · rfl
  · rfl

/-- The parser's operation leaves all other registers as they are (R34). -/
theorem joinBlocks_linkWrites (ew : EventWord) (s : State) : joinBlocks s (linkWrites ew s) = linkWrites ew s := by
  unfold linkWrites
  split_ifs <;> rfl

/-- One edge, for every event word and every state (R71, R72, R177). -/
theorem edge_eq (ew : EventWord) (s : State) : edge ew s = .next (edgeNext ew s) := by
  unfold edge edgeNext State.operations eventOps
  cases hr : rstBit ew
  · simp only [Bool.false_eq_true, if_false]
    set s0 := s.driveFire false with hs0
    have hb0 : s.busy = s0.busy := rfl
    rw [hb0]
    cases ht : tickBit ew
    · have hg : gateWrites ew s0 = s0 := by simp [gateWrites, ht]
      rw [hg, joinBlocks_linkWrites]
      rcases pollOp_cases s0.busy ew with ⟨hb, hp, e⟩ | ⟨hb, hp, e⟩ | ⟨hn, e⟩ <;> rw [e] <;> simp only [runSet]
      · rw [exec_pollEnd_variant ew s0 hb hp]; exact showPlan_eq _
      · show andThen (exec .pollBegin s0) _ = _
        rw [exec_pollBegin_writes ew s0 hb hp]; exact showPlan_eq _
      · have hl : linkWrites ew s0 = s0 := by
          unfold linkWrites
          rcases hn with ⟨hb, hp⟩ | ⟨hb, hp⟩ <;> simp [hb, hp]
        rw [hl]; exact showPlan_eq _
    · have hg : (if s0.gateLast then s0.advanceGate.motorStep s0.plan else s0.advanceGate) = gateWrites ew s0 := by
        simp [gateWrites, ht]
      rcases pollOp_cases s0.busy ew with ⟨hb, hp, e⟩ | ⟨hb, hp, e⟩ | ⟨hn, e⟩ <;> rw [e] <;> simp only [runSet]
      · rw [exec_tick_variant, exec_pollEnd_variant ew s0 hb hp, hg]; exact showPlan_eq _
      · show andThen (andThen (exec (s0.variant .tick) s0) fun a => andThen (exec .pollBegin s0) _) _ = _
        rw [exec_tick_variant, exec_pollBegin_writes ew s0 hb hp, hg]; exact showPlan_eq _
      · have hl : linkWrites ew s0 = s0 := by
          unfold linkWrites
          rcases hn with ⟨hb, hp⟩ | ⟨hb, hp⟩ <;> simp [hb, hp]
        rw [exec_tick_variant, hg, hl, joinBlocks_gateWrites]; exact showPlan_eq _
  · simp only [if_true, runSet]
    show andThen (.next (s.driveFire false).toReset) showPlan = _
    rw [andThen_next, showPlan_eq]; rfl

/-- A step, in closed form. -/
theorem step_eq (s : State) : step s = .next (edgeNext s.pendingWord s.takeWord) := edge_eq _ _

end Sys2Proof.Machine
end

