-- ==== Sys2Proof/Laws/PerInstr.lean ====
section
/-! SUPPORT. The family `FitsRow`: the encoder's word of an operation carries the bits its row of the opcode table fixes. -/

namespace Sys2Proof.Laws

open Sys2Proof

/-- The word of `i` satisfies the match and mask of its row. -/
def FitsRow.Statement (i : Instr) : Prop := fitsRow i (encode i) = true

theorem pollEnd_word_fits (rx : Byte) : (0x1#4 ++ rx : BitVec 12).toNat &&& 0x900 = 0x100 := by
  have h : (0x1#4 ++ rx : BitVec 12) &&& 0x900#12 = 0x100#12 := by
    revert rx; decide
  have h' := congrArg BitVec.toNat h
  simpa [BitVec.toNat_and] using h'

theorem FitsRow.reset : FitsRow.Statement .reset := rfl
theorem FitsRow.nop : FitsRow.Statement .nop := rfl
theorem FitsRow.tick : FitsRow.Statement .tick := rfl
theorem FitsRow.gateCount : FitsRow.Statement .gateCount := rfl
theorem FitsRow.gateFire : FitsRow.Statement .gateFire := rfl
theorem FitsRow.mstepHold : FitsRow.Statement .mstepHold := rfl
theorem FitsRow.mstepStep : FitsRow.Statement .mstepStep := rfl
theorem FitsRow.mstepIdle : FitsRow.Statement .mstepIdle := rfl
theorem FitsRow.pollBegin : FitsRow.Statement .pollBegin := rfl

theorem FitsRow.pollEnd (rx : Byte) : FitsRow.Statement (.pollEnd rx) := by
  simpa [FitsRow.Statement, fitsRow, encode, Code.toNat, rowMask, rowMatch] using pollEnd_word_fits rx

theorem FitsRow.linkSync0 (rx : Byte) : FitsRow.Statement (.linkSync0 rx) := FitsRow.pollEnd rx
theorem FitsRow.linkSync1 (rx : Byte) : FitsRow.Statement (.linkSync1 rx) := FitsRow.pollEnd rx
theorem FitsRow.linkData (rx : Byte) : FitsRow.Statement (.linkData rx) := FitsRow.pollEnd rx
theorem FitsRow.linkFinal : FitsRow.Statement .linkFinal := rfl

theorem FitsRow.planNone (A : AngleCode) : FitsRow.Statement (.planNone A) := by
  simp [FitsRow.Statement, fitsRow, rowMask, rowMatch]
theorem FitsRow.planCw (A : AngleCode) : FitsRow.Statement (.planCw A) := by
  simp [FitsRow.Statement, fitsRow, rowMask, rowMatch]
theorem FitsRow.planCcw (A : AngleCode) : FitsRow.Statement (.planCcw A) := by
  simp [FitsRow.Statement, fitsRow, rowMask, rowMatch]

end Sys2Proof.Laws
end

