-- ==== Sys2Proof/Laws/Safety.lean ====
section
/-! SUPPORT. The small lemmas of the terms that the claims use: counting steps, and which codes have a stepping plan. -/

namespace Sys2Proof.Machine

open Sys2Proof

@[simp] theorem StepCounter.plus_width (c : StepCounter) (n : Nat) : (c.plus n).width = c.width := rfl

theorem StepCounter.plus_count (c : StepCounter) (n : Nat) :
    (c.plus n).count.toNat = (c.count.toNat + n) % 2 ^ c.width := by
  show (c.count + BitVec.ofNat c.width n).toNat = _
  rw [BitVec.toNat_add]; simp

@[simp] theorem StepCounter.plus_zero (c : StepCounter) : c.plus 0 = c := by
  cases c; simp [StepCounter.plus]

theorem StepCounter.next_eq_plus (c : StepCounter) : c.next = c.plus 1 := rfl

theorem StepCounter.next_plus (c : StepCounter) (n : Nat) : (c.plus n).next = c.plus (n + 1) := by
  cases c with
  | mk w b =>
    show (⟨w, b + BitVec.ofNat w n + 1⟩ : StepCounter) = ⟨w, b + BitVec.ofNat w (n + 1)⟩
    rw [BitVec.ofNat_add, BitVec.add_assoc]; rfl

/-- The motor step executes where the plan is enabled and the count of its direction is not zero (R150). -/
theorem State.wouldStep_iff (s : State) : s.wouldStep = true ↔ s.plan.en = true ∧ s.plan.stepCount ≠ 0 := by
  unfold State.wouldStep State.planEn State.budget
  rw [Bool.and_eq_true, decide_eq_true_eq]

end Sys2Proof.Machine
end

