-- ==== Sys2Proof/Tests/Slice0.lean ====
section
/-! SUPPORT. Tests. Expected results come from spec/95_test_vectors.md (the vector is named in each docstring) or are written
out by hand from the rule that is named; and one witness for each statement that has hypotheses. -/

namespace Sys2Proof.Tests

open Sys2Proof Sys2Proof.Machine

/-! ## Helpers -/

/-- The reset state with the parser's position and the angle code set. -/
def parserAt (k : Fin (Config.frameLen + 1)) (busy : Bool) (sel : Bool) (A : AngleCode) (f : Memory) : State :=
  { State.reset with k := k, busy := busy, sel_n := sel, angle_code := A, frame := f }

/-- The reset state with the gate, the angle code and the coil registers set. -/
def motorAt (g : Fin Config.motorDiv) (A : AngleCode) (step : Fin Config.coilPhases) (c : Coil) (n : BitVec 32) : State :=
  { State.reset with gate_cnt := g, angle_code := A, coil_step := step, coil := c, total_steps := ⟨32, n⟩ }

/-- One fact about the state after an outcome; false where there is none. -/
def after (o : Host.Outcome State Fault Refusal) (p : State → Bool) : Bool :=
  match o with
  | .next t => p t
  | .fault _ => false
  | .refused _ => false

/-! ## WellFormed: each check refuses an ill-formed term (R136, R138, R139, R71) -/

theorem test_wf_plan_none_refuses_512 : wellFormed (.planNone 512#14) = false := by decide

theorem test_wf_plan_none_refuses_15872 : wellFormed (.planNone 15872#14) = false := by decide

theorem test_wf_plan_cw_refuses_511 : wellFormed (.planCw 511#14) = false := by decide

theorem test_wf_plan_cw_refuses_8193 : wellFormed (.planCw 8193#14) = false := by decide

theorem test_wf_plan_ccw_refuses_8192 : wellFormed (.planCcw 8192#14) = false := by decide

theorem test_wf_plan_ccw_refuses_15873 : wellFormed (.planCcw 15873#14) = false := by decide

theorem test_wf_set_refuses_poll_begin_while_busy : (EdgeSet.single .pollBegin).wellFormed true = false := by decide

theorem test_wf_set_refuses_poll_end_while_idle : (EdgeSet.single (.pollEnd 0x55#8)).wellFormed false = false := by decide

theorem test_wf_set_refuses_a_variant : (EdgeSet.single .gateFire).wellFormed true = false := by decide

theorem test_wf_set_refuses_two_polls : (EdgeSet.pair .pollBegin (.pollEnd 0#8)).wellFormed true = false := by decide

theorem test_wf_set_refuses_tick_with_poll_begin_while_busy :
    (EdgeSet.pair .tick .pollBegin).wellFormed true = false := by decide

theorem test_wf_set_refuses_tick_with_poll_end_while_idle :
    (EdgeSet.pair .tick (.pollEnd 0#8)).wellFormed false = false := by decide

/-! ## Decoding: the words of R85 written out bit by bit, with the state's part of each row (R72) -/

theorem test_decode_reset : decodeTableWord 16 0b100000000000 = some .reset := by decide

theorem test_decode_nop : decodeTableWord 16 0b000000000000 = some .nop := by decide

theorem test_decode_tick : decodeTableWord 16 0b010000000000 = some .tick := by decide

theorem test_decode_poll_begin : decodeTableWord 16 0b001000000000 = some .pollBegin := by decide

theorem test_decode_poll_end : decodeTableWord 16 0b000111000011 = some (.pollEnd 0b11000011#8) := by decide

theorem test_decode_two_strobes_is_a_set : decodeTableWord 16 0b010100000000 = none := by decide

theorem test_decode_rejects_thirteen_bits : decodeTableWord 16 0b1000000000000 = none := by decide

theorem test_decode_gate_count : motorAt 2 0 0 .off 0 |>.activeRows 0b010000000000#12 |>.contains .gateCount := by decide

theorem test_decode_gate_fire : motorAt 3 0 0 .off 0 |>.activeRows 0b010000000000#12 |>.contains .gateFire := by decide

theorem test_decode_mstep_hold : motorAt 3 14#14 2 .ports23 2 |>.activeRows 0b010000000000#12 |>.contains .mstepHold := by decide

theorem test_decode_mstep_step : motorAt 3 512#14 0 .off 0 |>.activeRows 0b010000000000#12 |>.contains .mstepStep := by decide

theorem test_decode_mstep_idle : motorAt 3 8300#14 1 .ports12 9 |>.activeRows 0b010000000000#12 |>.contains .mstepIdle := by decide

theorem test_decode_link_sync0 :
    parserAt 0 true false 0 [] |>.activeRows 0b000111111111#12 |>.contains (.linkSync0 0xFF#8) := by decide

theorem test_decode_link_sync1 :
    parserAt 1 true false 0 [] |>.activeRows 0b000100000000#12 |>.contains (.linkSync1 0x00#8) := by decide

theorem test_decode_link_data :
    parserAt 2 true false 0 [] |>.activeRows 0b000110000000#12 |>.contains (.linkData 0x80#8) := by decide

theorem test_decode_link_final :
    parserAt 10 true true 0 [] |>.activeRows 0b000111000011#12 |>.contains .linkFinal := by decide

/-- V-PLAN rows 5, 6, 12, 13, 19 and 20: the codes at the borders of the cases, bit by bit. -/
theorem test_decode_plan_cases :
    planVariant 0b00000111111111#14 = .planNone 511#14 ∧ planVariant 0b00001000000000#14 = .planCw 512#14 ∧
      planVariant 0b10000000000000#14 = .planCw 8192#14 ∧ planVariant 0b10000000000001#14 = .planCcw 8193#14 ∧
      planVariant 0b11111000000000#14 = .planCcw 15872#14 ∧ planVariant 0b11111000000001#14 = .planNone 15873#14 := by
  decide

/-! ## RESET and NOP -/

/-- V-SYS 2: every bit set is RESET alone. -/
theorem test_reset_wins :
    edge 0xFFF#12 (parserAt 5 true false 777#14 [(3, 0x39#8)]) = .next State.reset := by rfl

/-- V-LINK 16. -/
theorem test_reset_with_poll_end : edge 0x9AB#12 (parserAt 5 true false 777#14 []) = .next State.reset := by rfl

/-- V-SYS 4: `rx_byte` without a strobe. -/
theorem test_nop_ignores_rx_byte :
    after (edge 0x0C7#12 (motorAt 3 512#14 1 .ports12 1)) (fun t => t.toRegs = (motorAt 3 512#14 1 .ports12 1).toRegs) = true := by decide

/-! ## TICK, GATE.COUNT, GATE.FIRE -/

/-- V-GATE 3. -/
theorem test_gate_count :
    after (edge 0x400#12 (motorAt 2 512#14 0 .off 0)) (fun t => t.gate_cnt = 3 ∧ t.ports.fire = false ∧ t.coil.bits = 0) = true := by
  decide

/-- V-GATE 4. -/
theorem test_gate_fire :
    after (edge 0x400#12 (motorAt 3 0#14 0 .off 0)) (fun t => t.gate_cnt = 0 ∧ t.ports.fire = true) = true := by decide

/-- V-GATE 7: `rx_byte` without a poll strobe. -/
theorem test_tick_ignores_rx_byte :
    after (edge 0x4A5#12 (motorAt 3 0#14 0 .off 0)) (fun t => t.gate_cnt = 0 ∧ t.ports.fire = true) = true := by decide

/-- V-GATE 6: a poll does not count. -/
theorem test_tick_absent :
    after (edge 0x200#12 (motorAt 3 0#14 0 .off 0)) (fun t => t.gate_cnt = 3 ∧ t.ports.fire = false ∧ t.busy) = true := by decide

/-- V-GATE 12: with `N = 1` every raw tick fires. -/
theorem test_gate_threshold_one : (gateRun 3 0 (0 : Fin 1)).2 = [1, 2, 3] := by decide

/-- V-GATE 14. -/
theorem test_gate_threshold_three : (gateRun 7 0 (0 : Fin 3)).2 = [3, 6] ∧ (gateRun 7 0 (0 : Fin 3)).1 = 1 := by decide

/-! ## MSTEP -/

/-- V-MSTEP 9. -/
theorem test_mstep_hold :
    after (edge 0x400#12 (motorAt 3 14#14 2 .ports23 2)) (fun t => t.coil.bits = 0x6 ∧ t.coil_step = 2 ∧ t.total_steps.count = 2) = true := by
  decide

/-- V-MSTEP 12: the first CCW step after two CW steps. -/
theorem test_mstep_step_reversal :
    after (edge 0x400#12 (motorAt 3 10240#14 2 .ports23 2)) (fun t => t.coil.bits = 0x6 ∧ t.coil_step = 3 ∧ t.total_steps.count = 3) = true := by
  decide

/-- R148: `total_steps` wraps at `TOTAL_W`, here 3. -/
theorem test_mstep_step_wraps_at_its_width :
    (({ motorAt 3 8192#14 3 .ports34 0 with total_steps := ⟨3, 7#3⟩ } : State).motorStep (planOf 8192#14)).total_steps
      = ⟨3, 0#3⟩ := by decide

/-- V-MSTEP 14, with `TOTAL_W = 32`. -/
theorem test_mstep_step_wraps :
    after (edge 0x400#12 (motorAt 3 8192#14 3 .ports34 0xFFFFFFFF#32)) (fun t => t.coil.bits = 0x9 ∧ t.coil_step = 0 ∧ t.total_steps.count = 0)
      = true := by
  decide

/-- V-MSTEP 11. -/
theorem test_mstep_idle :
    after (edge 0x400#12 (motorAt 3 8300#14 1 .ports12 9)) (fun t => t.coil.bits = 0x3 ∧ t.coil_step = 1 ∧ t.total_steps.count = 9) = true := by
  decide

/-- V-MSTEP 17: the count of the other direction is not looked at. -/
theorem test_sequencer_alone_idle :
    (motorAt 0 0 1 .ports12 1).motorStep { en := true, dir := .ccw, stepsCw := 5, stepsCcw := 0 } = motorAt 0 0 1 .ports12 1 := by decide

/-- V-MSTEP 20. -/
theorem test_sequencer_alone_step :
    (motorAt 0 0 1 .ports12 1).motorStep { en := true, dir := .ccw, stepsCw := 3, stepsCcw := 9 } = motorAt 0 0 2 .ports34 2 := by decide

/-! ## The parser -/

/-- V-LINK 1. -/
theorem test_poll_begin : after (edge 0x200#12 (parserAt 0 false true 0 [])) (fun t => t.busy ∧ !t.sel_n) = true := by decide

/-- V-LINK 7. -/
theorem test_poll_begin_at_ten :
    after (edge 0x200#12 (parserAt 10 false false 0 [])) (fun t => t.busy ∧ t.sel_n) = true := by decide

/-- V-LINK 11: a POLL_END out of place. -/
theorem test_poll_end_ignored :
    edge 0x155#12 (parserAt 3 false false 0 []) = .next (parserAt 3 false false 0 []) := by rfl

/-- V-LINK 15: both strobes while busy. -/
theorem test_poll_end_beats_poll_begin :
    edge 0x3FF#12 (parserAt 0 true false 0 []) = .next (parserAt 1 false false 0 [(0, 0xFF#8)]) := by rfl

/-- V-LINK 2. -/
theorem test_link_sync0 :
    edge 0x1FF#12 (parserAt 0 true false 0 []) = .next (parserAt 1 false false 0 [(0, 0xFF#8)]) := by rfl

/-- V-LINK 4: the byte is not checked; a byte of 0x00 leaves nothing listed. -/
theorem test_link_sync1 :
    edge 0x100#12 (parserAt 1 true false 0 [(1, 0x12#8)]) = .next (parserAt 2 false false 0 []) := by rfl

/-- V-LINK 5. -/
theorem test_link_data :
    edge 0x180#12 (parserAt 2 true false 0 [(3, 0x39#8)])
      = .next (parserAt 3 false false 0 [(2, 0x80#8), (3, 0x39#8)]) := by rfl

/-- V-LINK 6. -/
theorem test_link_data_last :
    edge 0x1FF#12 (parserAt 9 true false 0 []) = .next (parserAt 10 false false 0 [(9, 0xFF#8)]) := by rfl

/-- V-LINK 8. -/
theorem test_link_final_valid :
    after (edge 0x1C3#12 (parserAt 10 true true 777#14 [(3, 0x39#8)]))
      (fun t => t.angle_code = 14 ∧ t.k = 0 ∧ t.busy = false ∧ t.frame = [(3, 0x39#8)]) = true := by decide

/-- V-LINK 9. -/
theorem test_link_final_invalid :
    after (edge 0x100#12 (parserAt 10 true true 777#14 [(2, 0x20#8), (3, 0x02#8)]))
      (fun t => t.angle_code = 777 ∧ t.k = 0 ∧ t.busy = false) = true := by decide

/-- V-SYS 6: a firing edge with a commit steps on the plan held before. -/
theorem test_tick_and_commit :
    after (edge 0x500#12 { parserAt 10 true true 512#14 [(3, 0x39#8)] with gate_cnt := 3, coil := .ports12, coil_step := 1, total_steps := ⟨32, 1⟩ })
      (fun t => t.coil.bits = 0x6 ∧ t.coil_step = 2 ∧ t.total_steps.count = 2 ∧ t.gate_cnt = 0 ∧ t.angle_code = 14 ∧ t.k = 0 ∧ !t.busy)
      = true := by decide

/-! ## The planner -/

/-- V-PLAN 5 and 20. -/
theorem test_plan_none :
    planOf 511#14 = { en := false, dir := .cw, stepsCw := 0, stepsCcw := 0 } ∧
      planOf 15873#14 = { en := false, dir := .ccw, stepsCw := 0, stepsCcw := 0 } := by decide

/-- V-PLAN 7 and 12. -/
theorem test_plan_cw :
    planOf 1023#14 = { en := true, dir := .cw, stepsCw := 1, stepsCcw := 0 } ∧
      planOf 8192#14 = { en := true, dir := .cw, stepsCw := 16, stepsCcw := 0 } := by decide

/-- V-PLAN 14 and 19. -/
theorem test_plan_ccw :
    planOf 8703#14 = { en := true, dir := .ccw, stepsCw := 0, stepsCcw := 0 } ∧
      planOf 15872#14 = { en := true, dir := .ccw, stepsCw := 0, stepsCcw := 15 } := by decide

/-- The planner's case leaves the registers alone and shows its plan. -/
theorem test_plan_case_runs :
    after (exec (.planCcw 15872#14) (motorAt 3 15872#14 0 .off 0))
      (fun t => t.toRegs = (motorAt 3 15872#14 0 .off 0).toRegs ∧ t.ports.plan = planOf 15872#14) = true := by decide

/-- The Statement family of LAWS.json holds of the RESET row's word. -/
theorem test_reset_word_fits_its_row : fitsRow .reset (encode .reset) = true := by decide

/-! ## Witnesses: a state and operands that meet all of a statement's hypotheses -/

theorem witness_StepRunsTheDecodedOperations :
    (let s : State := { parserAt 10 true true 0 [] with stimulus := [0x400#12] };
      s.operations s.pendingWord = .single .tick) ∧
    (let s : State := { parserAt 10 true true 0 [] with stimulus := [0x500#12] };
      s.operations s.pendingWord = .pair .tick (.pollEnd 0x00#8)) ∧ 4095 < 4096 := by decide

theorem witness_EventWordSelectsItsSet :
    (0x800#12).getLsbD 11 = true ∧ (0x7FF#12).getLsbD 11 = false := by decide

theorem witness_EncodedSetDecodesToItself :
    (EdgeSet.pair .tick (.pollEnd 0xFF#8)).wellFormed true = true ∧ (EdgeSet.pair .tick .pollBegin).wellFormed false = true ∧
      (EdgeSet.single .reset).wellFormed true = true := by decide

theorem witness_EncodedOperationIsActiveWhereSelected :
    (wellFormed (.linkData 0xFF#8) = true ∧ (parserAt 9 true false 0 []).selects (.linkData 0xFF#8) = true) ∧
      (wellFormed (.planCw 8192#14) = true ∧ (motorAt 0 8192#14 0 .off 0).selects (.planCw 8192#14) = true) ∧
      (wellFormed .mstepIdle = true ∧ (motorAt 3 8193#14 0 .off 0).selects .mstepIdle = true) := by decide

theorem witness_ActiveRowsMatchTheTable :
    Instr.mstepStep ∈ (motorAt 3 512#14 0 .off 0).activeRows 0x400#12 ∧
      Instr.linkFinal ∈ (parserAt 10 true true 0 []).activeRows 0x1C3#12 ∧ Instr.nop ∈ State.reset.activeRows 0x100#12 := by decide

theorem witness_TableWordDecodesToItsEvent :
    ∃ i : Instr, i = .pollEnd 0xFF#8 ∧ ∃ rx, i = .pollEnd rx := ⟨_, rfl, _, rfl⟩

theorem witness_IgnoredBitsChangeNothing :
    (0xFFF#12).getLsbD 11 = true ∧ (parserAt 3 true false 0 []).busy = true ∧ State.reset.busy = false ∧
      ((0x1FF#12).getLsbD 11 = false ∧ (0x1FF#12).getLsbD 10 = false ∧
        ¬ ((0x1FF#12).getLsbD 9 = true ∧ State.reset.busy = false) ∧
        ¬ ((0x1FF#12).getLsbD 8 = true ∧ State.reset.busy = true)) ∧
      ¬ ((0x1FF#12).getLsbD 8 = true ∧ (parserAt 10 true true 0 []).busy = true ∧ (parserAt 10 true true 0 []).k.val ≤ 9) := by decide

theorem witness_UnselectedOperationHolds :
    State.reset.selects .linkFinal = false ∧ (∀ A, Instr.linkFinal ≠ .planNone A) ∧ (∀ A, Instr.linkFinal ≠ .planCw A) ∧
      (∀ A, Instr.linkFinal ≠ .planCcw A) := ⟨rfl, nofun, nofun, nofun⟩

theorem witness_ResetWritesEveryRegister :
    (0xFFF#12).getLsbD 11 = true := by decide

theorem witness_NopChangesNoRegister :
    (parserAt 3 false false 0 []).operations 0x155#12 = .single .nop := by decide

/-- A state with no coil energized that commits code 2048 (V-SYS 5), the runs' words, and the code at the border of the band. -/
theorem witness_CoilsStayOffUntilAFrameCommits :
    (let s := parserAt 10 true true 0 [(2, 0x20#8), (3, 0x01#8)];
      s.coil.bits = 0x0#4 ∧ s.coil_step = 0 ∧ s.total_steps.count = 0 ∧ s.wouldStep = false ∧ (0x500#12).getLsbD 11 = false ∧
        after (edge 0x500#12 s) (fun t => t.wouldStep) = true) ∧
      (State.resetWith 8).wouldStep = false ∧ (motorAt 0 8703#14 0 .off 0).wouldStep = false ∧
      ∀ ew ∈ [0x600#12, 0x400#12, 0x2FF#12], ew.getLsbD 11 = false ∧ ew.getLsbD 8 = false := by decide

/-- The run of one tick and an ignored `poll_end` from reset meets the hypothesis on the states it starts its edges from. -/
theorem witness_CoilsStayOffUntilAFrameCommits_run (n : Nat) (u : State) (hn : n < [0x5FF#12].length)
    (h : runEdges ([0x5FF#12].take n) (State.resetWith 8) = .next u) : u.wouldStep = false := by
  have h0 : n = 0 := by simpa using hn
  subst h0
  injection h with h
  subst h; rfl

theorem witness_GateCountAddsOne :
    (motorAt 0 0 0 .off 0).gate_cnt.val ≠ Config.motorDiv - 1 ∧ (motorAt 2 0 0 .off 0).gate_cnt.val ≠ Config.motorDiv - 1 ∧
      (0x400#12).getLsbD 11 = false ∧ (0x400#12).getLsbD 10 = true := by decide

theorem witness_GateFireCarriesOneMotorStep :
    (motorAt 3 512#14 0 .off 0).gate_cnt.val = Config.motorDiv - 1 ∧ (0x400#12).getLsbD 11 = false ∧
      (0x400#12).getLsbD 10 = true := by decide

theorem witness_TickIsOneOfItsVariants :
    (0x3FF#12).getLsbD 11 = false ∧ (0x3FF#12).getLsbD 10 = false ∧ (0x7FF#12).getLsbD 11 = false ∧ (0x7FF#12).getLsbD 10 = true := by decide

theorem witness_GateFiresOnEveryNthTick :
    0 < 1 := by decide

theorem witness_GateCounterCountsRawTicks :
    ∀ ew ∈ [0x400#12, 0x7FF#12, 0x000#12], ew.getLsbD 11 = false := by decide

theorem witness_MstepHoldWritesNothing :
    (motorAt 3 511#14 2 .ports23 2).gate_cnt.val = Config.motorDiv - 1 ∧ (motorAt 3 511#14 2 .ports23 2).planEn = false := by decide

theorem witness_MstepStepTakesOneCoilStep :
    ((motorAt 3 512#14 0 .off 0).gate_cnt.val = Config.motorDiv - 1 ∧ (motorAt 3 512#14 0 .off 0).planEn = true ∧
        (motorAt 3 512#14 0 .off 0).budget ≠ 0) ∧
      ((motorAt 3 15872#14 3 .ports23 0xFFFFFFFF#32).planEn = true ∧ (motorAt 3 15872#14 3 .ports23 0xFFFFFFFF#32).budget ≠ 0) := by decide

theorem witness_MstepIdleWritesNothing :
    (motorAt 3 8703#14 1 .ports12 9).gate_cnt.val = Config.motorDiv - 1 ∧ (motorAt 3 8703#14 1 .ports12 9).planEn = true ∧
      (motorAt 3 8703#14 1 .ports12 9).budget = 0 ∧
      (let p : Plan := { en := true, dir := .cw, stepsCw := 0, stepsCcw := 5 };
        p.en = true ∧ p.dir = .cw ∧ p.stepsCw = 0) ∧
      (let p : Plan := { en := true, dir := .ccw, stepsCw := 5, stepsCcw := 0 };
        p.en = true ∧ p.dir = .ccw ∧ p.stepsCcw = 0) := by decide

theorem witness_MotorStepDecidesInOrder :
    (∃ p : Plan, p.en = false) ∧ (∃ p : Plan, p.en = true ∧ (if p.dir = .cw then p.stepsCw else p.stepsCcw) ≠ 0) ∧
      (∃ p : Plan, p.en = true ∧ (if p.dir = .cw then p.stepsCw else p.stepsCcw) = 0) := by
  refine ⟨⟨⟨false, .cw, 7, 7⟩, rfl⟩, ⟨⟨true, .ccw, 3, 9⟩, rfl, ?_⟩, ⟨⟨true, .cw, 0, 5⟩, rfl, ?_⟩⟩ <;> decide

theorem witness_MotorActsOnlyAtFiringEdges :
    (0x5FF#12).getLsbD 11 = false ∧ (motorAt 3 512#14 0 .off 0).fireOutput 0x5FF#12 = true ∧
      (motorAt 2 512#14 0 .off 0).fireOutput 0x5FF#12 = false := by decide

theorem witness_FourStepsWalkTheTable :
    (planOf 512#14).en = true ∧ (planOf 512#14).stepCount ≠ 0 ∧ (planOf 512#14).dir = .cw ∧ (planOf 15872#14).en = true ∧
      (planOf 15872#14).stepCount ≠ 0 ∧ (planOf 15872#14).dir = .ccw ∧ State.reset.coil_step = 0 := by decide

theorem witness_ReversalKeepsTheIndex :
    State.reset.coil_step = 0 := rfl

theorem witness_BudgetIsNotConsumed :
    ((planOf 512#14).en = (planOf 8192#14).en ∧ (planOf 512#14).dir = (planOf 8192#14).dir ∧
        ((planOf 512#14).stepCount = 0 ↔ (planOf 8192#14).stepCount = 0)) ∧
      ((motorAt 0 512#14 0 .off 0).gate_cnt = 0 ∧ (motorAt 0 512#14 0 .off 0).wouldStep = true) := by decide

theorem witness_TotalStepsCountsExecutedSteps :
    ∀ ew ∈ [0x400#12, 0x500#12], ew.getLsbD 11 = false := by decide

theorem witness_CoilsStayEnergized :
    (0x400#12).getLsbD 11 = false ∧ (motorAt 3 512#14 0 .off 0).fireOutput 0x400#12 = true ∧
      (motorAt 3 512#14 0 .off 0).wouldStep = true ∧ (motorAt 3 512#14 1 .ports12 1).coil.bits ∈ coilPatterns := by decide

theorem witness_PollBeginDrivesTheSelectLine :
    (parserAt 0 false true 0 []).busy = false ∧ (parserAt 10 true true 0 []).busy = true ∧
      (0x200#12).getLsbD 11 = false ∧ (0x200#12).getLsbD 9 = true := by decide

theorem witness_PollEndIsOneOfItsVariants :
    (parserAt 0 true false 0 []).busy = true ∧ (parserAt 0 true false 0 []).k.val = 0 ∧
      (parserAt 1 true false 0 []).k.val = 1 ∧ 2 ≤ (parserAt 2 true false 0 []).k.val ∧ (parserAt 9 true false 0 []).k.val ≤ 9 ∧
      2 ≤ (parserAt 9 true false 0 []).k.val ∧ (parserAt 10 true true 0 []).k.val = 10 ∧ State.reset.busy = false ∧
      (0x1FF#12).getLsbD 11 = false ∧ (0x1FF#12).getLsbD 8 = true := by decide

theorem witness_LinkSync0StoresTheFirstByte :
    (parserAt 0 true false 0 []).busy = true ∧ (parserAt 0 true false 0 []).k.val = 0 := by decide

theorem witness_LinkSync1StoresTheSecondByte :
    (parserAt 1 true false 0 []).busy = true ∧ (parserAt 1 true false 0 []).k.val = 1 := by decide

theorem witness_LinkDataStoresAtThePosition :
    ((parserAt 2 true false 0 []).busy = true ∧ 2 ≤ (parserAt 2 true false 0 []).k.val ∧ (parserAt 2 true false 0 []).k.val ≤ 9) ∧
      ((parserAt 9 true false 0 []).busy = true ∧ 2 ≤ (parserAt 9 true false 0 []).k.val ∧ (parserAt 9 true false 0 []).k.val ≤ 9) := by decide

theorem witness_LinkFinalCommitsAValidFrame :
    (parserAt 10 true true 777#14 [(3, 0x39#8)]).busy = true ∧ (parserAt 10 true true 777#14 [(3, 0x39#8)]).k.val = 10 ∧
      (Memory.read (parserAt 10 true true 777#14 [(3, 0x39#8)]).frame 3).getLsbD 0 = true ∧
      (Memory.read (parserAt 10 true true 777#14 [(2, 0x20#8), (3, 0x02#8)]).frame 3).getLsbD 0 = false := by decide

theorem witness_CommittedAngleInDegrees :
    (parserAt 10 true true 0 [(2, 0xFF#8), (3, 0xFF#8)]).busy = true ∧ (parserAt 10 true true 0 [(2, 0xFF#8), (3, 0xFF#8)]).k.val = 10 ∧
      (Memory.read (parserAt 10 true true 0 [(2, 0xFF#8), (3, 0xFF#8)]).frame 3).getLsbD 0 = true := by decide

theorem witness_UnreadFrameBitsHaveNoEffect :
    Memory.read [(0, 0x12#8), (3, 0x3B#8)] 2 = Memory.read (parserAt 10 true true 0 [(3, 0x39#8)]).frame 2 ∧
      Memory.read [(0, 0x12#8), (3, 0x3B#8)] 3 &&& 0xFD#8 = Memory.read (parserAt 10 true true 0 [(3, 0x39#8)]).frame 3 &&& 0xFD#8 := by decide

theorem witness_PollIsBeginThenEnd :
    (parserAt 10 false false 0 []).busy = false ∧ (parserAt 0 false true 0 []).busy = false := by decide

theorem witness_FrameCycleCommitsItsBytes :
    State.reset.k = 0 ∧ State.reset.busy = false ∧ (1 ≤ 21 ∧ 21 < 22) := by decide

theorem witness_AngleChangesOnlyAtAValidCommit :
    (0x100#12).getLsbD 11 = false ∧
      after (edge 0x100#12 (parserAt 10 true true 777#14 [(3, 0x39#8)])) (fun t => t.angle_code ≠ 777#14) = true := by decide

theorem witness_OrderedPollsAreNeverIgnored :
    (0x200#12).getLsbD 11 = false ∧ pollOrderKept State.reset 0x200#12 = true ∧ (0x200#12).getLsbD 9 = true ∧
      pollOrderKept (parserAt 9 true false 0 []) 0x1FF#12 = true ∧ (0x1FF#12).getLsbD 8 = true ∧ Inv (parserAt 9 true false 0 []) := ⟨rfl, rfl, rfl, rfl, rfl, ⟨rfl, .inl rfl, rfl, rfl⟩⟩

theorem witness_PlanNoneDisablesMotion :
    (511#14).toNat ≤ 511 ∧ 15873 ≤ (15873#14).toNat := by decide

theorem witness_PlanCwCountsFromZeroDegrees :
    (512 ≤ (512#14).toNat ∧ (512#14).toNat ≤ 8192) ∧ (512 ≤ (8192#14).toNat ∧ (8192#14).toNat ≤ 8192) ∧
      (512 ≤ (motorAt 0 8192#14 0 .off 0).angle_code.toNat ∧ (motorAt 0 8192#14 0 .off 0).angle_code.toNat ≤ 8192) := by decide

theorem witness_PlanCcwCountsFromHalfTurn :
    (8193 ≤ (8193#14).toNat ∧ (8193#14).toNat ≤ 15872) ∧ (8193 ≤ (15872#14).toNat ∧ (15872#14).toNat ≤ 15872) := by decide

theorem witness_CodePlanEqualsDegreePlan :
    (planOf 8192#14).en = true ∧ (8192#14 : AngleCode).toNat ≤ 8192 ∧ (planOf 8193#14).en = true ∧ 8192 < (8193#14 : AngleCode).toNat := by decide

theorem witness_PlanCountsBelongToTheDirection :
    (planOf 8192#14).stepsCw ≠ 0 ∧ (planOf 15872#14).stepsCcw ≠ 0 := by decide

/-- R130 and R142 at the ends: 0 degrees is admitted, 360 is not; 180 gives 16 CW steps, 348.75 gives 15 CCW steps. -/
theorem witness_DegreePlannerTakesOnlyZeroTo360 :
    (WindAngle.ofDegrees? 0).isSome = true ∧ WindAngle.ofDegrees? 360 = none ∧ WindAngle.ofDegrees? (-1) = none ∧
      planOfDegrees ⟨180, by norm_num, by norm_num⟩ = ⟨true, some .cw, 16, 0⟩ ∧
      planOfDegrees ⟨1395 / 4, by norm_num, by norm_num⟩ = ⟨true, some .ccw, 0, 15⟩ := by
  refine ⟨?_, ?_, ?_, ?_, ?_⟩ <;> norm_num [WindAngle.ofDegrees?, planOfDegrees, Config.stepAngle] <;> rfl

theorem witness_EveryStepKeepsTheInvariant :
    ∃ s t : State, Inv s ∧ s.busy = true ∧ step s = .next t ∧ t.frame = [(9, 0xFF#8)] := ⟨{ parserAt 9 true false 0 [] with stimulus := [0x1FF#12] }, _, ⟨rfl, .inl rfl, rfl, rfl⟩, rfl, rfl, rfl⟩

theorem witness_EachRegisterHasOneWriter :
    (∃ t, exec .gateFire (motorAt 3 512#14 0 .off 0) = .next t) ∧ writesLink .gateFire = false ∧
      (∃ t, exec .linkFinal (parserAt 10 true true 0 []) = .next t) ∧ writesGate .linkFinal = false ∧
      writesMotor .linkFinal = false ∧ (∃ t, exec State.reset.planCase State.reset = .next t) ∧
      ∃ t, exec .reset (parserAt 5 true false 777#14 []) = .next t := ⟨⟨_, rfl⟩, rfl, ⟨_, rfl⟩, rfl, rfl, ⟨_, rfl⟩, ⟨_, rfl⟩⟩

theorem witness_SameEdgeEventsAreIndependent :
    (0xFFF#12).getLsbD 11 = true ∧ (0x5FF#12).getLsbD 11 = false := by decide

theorem witness_EdgeEqualsTickThenPoll :
    (0x500#12).getLsbD 11 = false ∧
      ¬ ((motorAt 3 512#14 0 .off 0).fireOutput 0x500#12 = true ∧ (0x500#12).getLsbD 8 = true ∧
        (motorAt 3 512#14 0 .off 0).busy = true ∧ (motorAt 3 512#14 0 .off 0).k.val = 10) := by decide

theorem witness_EqualFramesAreEqualData :
    Memory.wf [(2, 0x20#8), (9, 0x01#8)] = true ∧
      ∀ i, Memory.read [(2, 0x20#8), (9, 0x01#8)] i = Memory.read (Memory.write [(9, 0x01#8)] 2 0x20#8) i := by decide

end Sys2Proof.Tests
end

section
/-! SUPPORT and PROOFS. The registers and the output ports (10_state.md): what an operation can answer, said once per block,
the ownership of the registers that follows from it (R34), and the value of each output port (R37, R77). -/

namespace Sys2Proof.Machine

open Sys2Proof

/-! ## What an operation can answer -/

/-- What an operation of the sensor frame parser can leave of a state: it is ignored (R120), it begins a poll (R111), it stores
one byte and moves on (R113 to R115), or it ends a frame (R116). -/
inductive LinkEffect (s : State) : State → Prop
  | ignored : LinkEffect s s
  | begun : LinkEffect s s.beginPoll
  | stored (i : Fin Config.frameLen) (rx : Byte) (k : Fin (Config.frameLen + 1)) : LinkEffect s ((s.storeByte i rx).endPoll k)
  | committed : LinkEffect s (s.commitAngle.endPoll 0)

/-- What the operation `i` can leave of the state `s`, together with the block whose registers that may change. -/
inductive Effect (i : Instr) (s : State) : State → Prop
  | held : Effect i s s
  | reset (hi : i = .reset) : Effect i s s.toReset
  | counted (hg : writesGate i = true) : Effect i s s.advanceGate
  | fired (hg : writesGate i = true) (hm : writesMotor i = true) : Effect i s (s.advanceGate.motorStep s.plan)
  | stepped (hm : writesMotor i = true) : Effect i s (s.stepCoil s.plan.dir)
  | polled {t : State} (hl : writesLink i = true) (h : LinkEffect s t) : Effect i s t
  | planned (p : Plan) : Effect i s (s.drivePlan p)

/-- An operation that acts under a condition and otherwise holds answers one of the two states. -/
theorem eq_or_eq_of_ite_next {c : Prop} [Decidable c] {a b t : State}
    (h : (if c then .next a else .next b : Host.Outcome State Fault Refusal) = .next t) : t = a ∨ t = b := by
  split at h <;> injection h with h
  · exact .inl h.symm
  · exact .inr h.symm

theorem execGateCount_effect {i : Instr} {s t : State} (hg : writesGate i = true) (h : execGateCount s = .next t) :
    Effect i s t := by
  rcases eq_or_eq_of_ite_next h with rfl | rfl
  · exact .held
  · exact .counted hg

theorem execGateFire_effect {i : Instr} {s t : State} (hg : writesGate i = true) (hm : writesMotor i = true)
    (h : execGateFire s = .next t) : Effect i s t := by
  rcases eq_or_eq_of_ite_next h with rfl | rfl
  · exact .fired hg hm
  · exact .held

theorem execTick_effect {i : Instr} {s t : State} (hg : writesGate i = true) (hm : writesMotor i = true)
    (h : execTick s = .next t) : Effect i s t := by
  unfold execTick at h
  split at h
  · exact execGateFire_effect hg hm h
  · exact execGateCount_effect hg h

theorem execLinkSync0_effect {rx : Byte} {s t : State} (h : execLinkSync0 rx s = .next t) : LinkEffect s t := by
  rcases eq_or_eq_of_ite_next h with rfl | rfl
  · exact .stored 0 rx 1
  · exact .ignored

theorem execLinkSync1_effect {rx : Byte} {s t : State} (h : execLinkSync1 rx s = .next t) : LinkEffect s t := by
  rcases eq_or_eq_of_ite_next h with rfl | rfl
  · exact .stored 1 rx 2
  · exact .ignored

theorem execLinkData_effect {rx : Byte} {s t : State} (h : execLinkData rx s = .next t) : LinkEffect s t := by
  unfold execLinkData at h
  split at h <;> cases h
  · exact .stored _ rx _
  · exact .ignored

theorem execLinkFinal_effect {s t : State} (h : execLinkFinal s = .next t) : LinkEffect s t := by
  rcases eq_or_eq_of_ite_next h with rfl | rfl
  · exact .committed
  · exact .ignored

theorem execPollBegin_effect {s t : State} (h : execPollBegin s = .next t) : LinkEffect s t := by
  rcases eq_or_eq_of_ite_next h with rfl | rfl
  · exact .ignored
  · exact .begun

theorem execPollEnd_effect {rx : Byte} {s t : State} (h : execPollEnd rx s = .next t) : LinkEffect s t := by
  unfold execPollEnd at h
  split_ifs at h
  · cases h; exact .ignored
  · exact execLinkSync0_effect h
  · exact execLinkSync1_effect h
  · exact execLinkData_effect h
  · exact execLinkFinal_effect h

/-- Everything an operation can do, and by which block. -/
theorem exec_effect {i : Instr} {s t : State} (h : exec i s = .next t) : Effect i s t := by
  cases i with
  | reset => cases h; exact .reset rfl
  | nop | mstepHold | mstepIdle => cases h; exact .held
  | planNone A | planCw A | planCcw A => cases h; exact .planned _
  | tick => exact execTick_effect rfl rfl h
  | gateCount => exact execGateCount_effect rfl h
  | gateFire => exact execGateFire_effect rfl rfl h
  | mstepStep =>
    rcases eq_or_eq_of_ite_next h with rfl | rfl
    · exact .stepped rfl
    · exact .held
  | pollBegin => exact .polled rfl (execPollBegin_effect h)
  | pollEnd rx => exact .polled rfl (execPollEnd_effect h)
  | linkSync0 rx => exact .polled rfl (execLinkSync0_effect h)
  | linkSync1 rx => exact .polled rfl (execLinkSync1_effect h)
  | linkData rx => exact .polled rfl (execLinkData_effect h)
  | linkFinal => exact .polled rfl (execLinkFinal_effect h)

/-! ## Ownership (R34) -/

theorem LinkEffect.gate_cnt {s t : State} (h : LinkEffect s t) : t.gate_cnt = s.gate_cnt := by
  cases h <;> rfl

theorem LinkEffect.sameMotor {s t : State} (h : LinkEffect s t) : sameMotor s t := by
  cases h <;> exact ⟨rfl, rfl, rfl⟩

theorem sameMotor_refl (s : State) : sameMotor s s := ⟨rfl, rfl, rfl⟩

theorem sameLink_refl (s : State) : sameLink s s := ⟨rfl, rfl, rfl, rfl, rfl⟩

theorem State.advanceGate_motorStep_sameLink (p : Plan) (s : State) : sameLink s (s.advanceGate.motorStep p) := by
  obtain ⟨-, hk, hbusy, hsel, hframe, hangle, -, -⟩ := s.advanceGate.motorStep_frame p
  exact ⟨hk, hbusy, hsel, hframe, hangle⟩

/-- Only the tick gate's operations and RESET write `gate_cnt`. -/
theorem Effect.gate_cnt {i : Instr} {s t : State} (h : Effect i s t) (hi : writesGate i = false) :
    t.gate_cnt = s.gate_cnt := by
  cases h with
  | held | stepped | planned => rfl
  | polled _ hl => exact hl.gate_cnt
  | reset hr => subst hr; cases hi
  | counted hg | fired hg _ => rw [hg] at hi; cases hi

/-- Only an operation that performs or may carry a motor step, and RESET, write the motor sequencer's registers. -/
theorem Effect.sameMotor {i : Instr} {s t : State} (h : Effect i s t) (hi : writesMotor i = false) : sameMotor s t := by
  cases h with
  | held | counted | planned => exact sameMotor_refl s
  | polled _ hl => exact hl.sameMotor
  | reset hr => subst hr; cases hi
  | fired _ hm | stepped hm => rw [hm] at hi; cases hi

/-- Only the parser's operations and RESET write the parser's registers. -/
theorem Effect.sameLink {i : Instr} {s t : State} (h : Effect i s t) (hi : writesLink i = false) : sameLink s t := by
  cases h with
  | held | counted | stepped | planned => exact sameLink_refl s
  | fired => exact s.advanceGate_motorStep_sameLink s.plan
  | reset hr => subst hr; cases hi
  | polled hl _ => rw [hl] at hi; cases hi

/-- The planner's case changes no register (R140). -/
theorem exec_planCase_toRegs {s t : State} (h : exec s.planCase s = .next t) : t.toRegs = s.toRegs := by
  have hplan : exec s.planCase s = .next (s.drivePlan s.plan) := showPlan_eq s
  rw [hplan] at h
  cases h; rfl

/-- Settles O53: the three ownership clauses are read off the effect of an operation; the planner's case only drives the ports. -/
theorem eachRegisterHasOneWriter : Obligations.EachRegisterHasOneWriter := by
  refine ⟨fun i s t h => ?_, fun s t h => exec_planCase_toRegs h, fun s t h => ?_⟩
  · have he := exec_effect h
    exact ⟨he.gate_cnt, he.sameMotor, he.sameLink⟩
  · cases h; rfl

/-! ## The output ports (R37, R77) -/

theorem txByte_eq (k : Fin (Config.frameLen + 1)) : txByte k = if k = 0 then 0xAA#8 else 0xFF#8 := by
  simp [txByte]

theorem xferFlag_eq (k : Fin (Config.frameLen + 1)) : xferFlag k = decide (k.val ≤ 9) :=
  decide_eq_decide.2 Nat.lt_succ_iff

/-- `fire` is high exactly at a raw tick that completes a group, and never together with `rst` (R103). -/
theorem State.fireOutput_eq (s : State) (ew : EventWord) :
    s.fireOutput ew = (!ew.getLsbD 11 && ew.getLsbD 10 && decide (s.gate_cnt.val = Config.motorDiv - 1)) := by
  have hlast : s.gateLast = decide (s.gate_cnt.val = Config.motorDiv - 1) :=
    decide_eq_decide.2 (by change _ + 1 = 4 ↔ _ = 3; omega)
  rw [State.fireOutput, hlast, rstBit, tickBit]

theorem directionBit_eq (d : Direction) : directionBit d = if d = .cw then 0#1 else 1#1 := by
  cases d <;> rfl

theorem Plan.stepCount_eq (p : Plan) : p.stepCount = if p.dir = .cw then p.stepsCw else p.stepsCcw := by
  unfold Plan.stepCount
  cases p.dir <;> rfl

/-- A counter shows its value on a port that is wide enough for its range. -/
theorem toNat_ofNat_fin {n w : Nat} (h : n ≤ 2 ^ w) (x : Fin n) : (BitVec.ofNat w x.val).toNat = x.val := by
  rw [BitVec.toNat_ofNat, Nat.mod_eq_of_lt (x.isLt.trans_le h)]

theorem frameBytes_length (m : Memory) : (frameBytes m).length = Config.frameLen := by
  simp [frameBytes]

theorem frameBytes_getElem? (m : Memory) (i : Fin Config.frameLen) :
    (frameBytes m)[i.val]? = some (Memory.read m i) := by
  simp [frameBytes]

/-- Settles O57: the ports that repeat a register hold by definition; the others by the lemma of their function. -/
theorem outputPortsShowTheRegisters : Obligations.OutputPortsShowTheRegisters := fun ew s =>
  have hk : (s.outputs ew).k.toNat = s.k.val := toNat_ofNat_fin (by decide) s.k
  have hstep : (s.outputs ew).coil_step.toNat = s.coil_step.val := toNat_ofNat_fin (by decide) s.coil_step
  have hgate : (s.outputs ew).gate_cnt.toNat = s.gate_cnt.val := toNat_ofNat_fin (by decide) s.gate_cnt
  ⟨rfl, rfl, txByte_eq s.k, xferFlag_eq s.k, rfl, hk, rfl, rfl, hstep, hgate, s.fireOutput_eq ew, rfl,
    directionBit_eq s.plan.dir, rfl, rfl, s.plan.stepCount_eq, frameBytes_length s.frame, frameBytes_getElem? s.frame⟩

end Sys2Proof.Machine
end

section
/-! SUPPORT and PROOFS. The event word (30_encoding.md): the set of operations it selects (R71), the bits of it that count for
nothing (R73, R120), and the coil tables (R80). -/

namespace Sys2Proof.Machine

open Sys2Proof

/-! ## The set of operations of an event word (R71) -/

/-- The parser's operation of a word is the one whose strobe matches `busy`. -/
theorem pollOp_eq_some_iff {busy : Bool} {ew : EventWord} {i : Instr} :
    pollOp busy ew = some i ↔
      (i = .pollBegin ∧ pollBeginBit ew = true ∧ busy = false) ∨
        (i = .pollEnd (rxByte ew) ∧ pollEndBit ew = true ∧ busy = true) := by
  rcases pollOp_cases busy ew with ⟨hb, hp, h⟩ | ⟨hb, hp, h⟩ | ⟨⟨hb, hp⟩ | ⟨hb, hp⟩, h⟩ <;>
    rw [h] <;> simp [hb, hp, @eq_comm _ i]

theorem pollOp_eq_none_iff {busy : Bool} {ew : EventWord} :
    pollOp busy ew = none ↔
      ¬ (pollBeginBit ew = true ∧ busy = false) ∧ ¬ (pollEndBit ew = true ∧ busy = true) := by
  rcases pollOp_cases busy ew with ⟨hb, hp, h⟩ | ⟨hb, hp, h⟩ | ⟨⟨hb, hp⟩ | ⟨hb, hp⟩, h⟩ <;>
    rw [h] <;> simp [hb, hp]

theorem eventOps_of_rst {busy : Bool} {ew : EventWord} (hr : rstBit ew = true) : eventOps busy ew = .single .reset := by
  simp [eventOps, hr]

/-- Without `rst` the set holds TICK, the parser's operation, and NOP where neither of them is (R71 (2) to (5)). -/
theorem mem_eventOps_iff {busy : Bool} {ew : EventWord} {i : Instr} (hr : rstBit ew = false) :
    i ∈ (eventOps busy ew).ops ↔
      (i = .tick ∧ tickBit ew = true) ∨ pollOp busy ew = some i ∨
        (i = .nop ∧ tickBit ew = false ∧ pollOp busy ew = none) := by
  simp only [eventOps, hr, Bool.false_eq_true, if_false]
  cases tickBit ew <;> cases pollOp busy ew <;> simp [EdgeSet.ops, @eq_comm _ i]

/-- POLL_BEGIN is selected only while not busy, POLL_END only while busy, and RESET excludes both. -/
theorem not_pollBegin_and_pollEnd_mem (busy : Bool) (ew : EventWord) (rx : Byte) :
    ¬ (.pollBegin ∈ (eventOps busy ew).ops ∧ .pollEnd rx ∈ (eventOps busy ew).ops) := by
  cases hr : rstBit ew with
  | true => simp [eventOps_of_rst hr, EdgeSet.ops]
  | false =>
    simp only [mem_eventOps_iff hr, pollOp_eq_some_iff]
    cases busy <;> simp

/-- Settles O3: each clause is the membership rule read at one operation. -/
theorem eventWordSelectsItsSet : Obligations.EventWordSelectsItsSet := by
  refine fun busy ew => ⟨fun hr => ?_, fun hr => ⟨?tick, ?pollBegin, fun rx => ?pollEnd, ?nop, fun i hi => ?others⟩,
    not_pollBegin_and_pollEnd_mem busy ew⟩
  · rw [eventOps_of_rst hr]; rfl
  case tick => simp [mem_eventOps_iff hr, pollOp_eq_some_iff, tickBit]
  case pollBegin => simp [mem_eventOps_iff hr, pollOp_eq_some_iff, pollBeginBit]
  case pollEnd =>
    simp only [mem_eventOps_iff hr, pollOp_eq_some_iff, reduceCtorEq, false_and, false_or, or_false, Instr.pollEnd.injEq]
    exact ⟨fun ⟨hrx, he, hb⟩ => ⟨he, hb, hrx⟩, fun ⟨he, hb, hrx⟩ => ⟨hrx, he, hb⟩⟩
  case nop =>
    simp only [mem_eventOps_iff hr, pollOp_eq_some_iff, pollOp_eq_none_iff, reduceCtorEq, false_and, false_or, true_and]
    exact Iff.rfl
  case others =>
    rw [mem_eventOps_iff hr, pollOp_eq_some_iff] at hi
    obtain ⟨rfl, -⟩ | (⟨rfl, -⟩ | ⟨rfl, -⟩) | ⟨rfl, -⟩ := hi
    · exact .inr (.inl rfl)
    · exact .inr (.inr (.inl rfl))
    · exact .inr (.inr (.inr ⟨_, rfl⟩))
    · exact .inl rfl

/-! ## The bits of an event word that count for nothing (R73, R120) -/

/-- Of the word the parser reads the strobe that matches `busy`, and `rx_byte` only to store it, at `k <= 9`. -/
theorem linkWrites_congr {ew ew' : EventWord} {s : State}
    (hbegin : s.busy = false → pollBeginBit ew = pollBeginBit ew')
    (hend : s.busy = true → pollEndBit ew = pollEndBit ew')
    (hrx : pollEndBit ew = true → s.busy = true → s.k.val ≤ 9 → rxByte ew = rxByte ew') :
    linkWrites ew s = linkWrites ew' s := by
  unfold linkWrites
  cases hb : s.busy with
  | false => simp only [hbegin hb, Bool.false_eq_true, if_false]
  | true =>
    rw [← hend hb]
    cases he : pollEndBit ew with
    | false => rfl
    | true =>
      by_cases hk : s.k.val ≤ 9
      · simp only [hrx he hb hk, if_true]
      · have h0 : s.k.val ≠ 0 := by omega
        have h1 : s.k.val ≠ 1 := by omega
        have hlast : ¬ s.k.val < Config.frameLen := by change ¬ _ < 10; omega
        simp only [h0, h1, hlast, if_true, if_false, dite_false]

theorem rstBit_and (ew m : EventWord) : rstBit (ew &&& m) = (rstBit ew && rstBit m) := BitVec.getLsbD_and

theorem tickBit_and (ew m : EventWord) : tickBit (ew &&& m) = (tickBit ew && tickBit m) := BitVec.getLsbD_and

theorem pollBeginBit_and (ew m : EventWord) : pollBeginBit (ew &&& m) = (pollBeginBit ew && pollBeginBit m) :=
  BitVec.getLsbD_and

theorem pollEndBit_and (ew m : EventWord) : pollEndBit (ew &&& m) = (pollEndBit ew && pollEndBit m) :=
  BitVec.getLsbD_and

theorem rxByte_and (ew m : EventWord) : rxByte (ew &&& m) = rxByte ew &&& rxByte m := BitVec.extractLsb'_and

/-- A mask that keeps every bit that counts in this state does not change the edge. -/
theorem edge_and_mask {ew m : EventWord} {s : State} (hrst : rstBit m = true) (htick : tickBit m = true)
    (hbegin : s.busy = false → pollBeginBit m = true) (hend : s.busy = true → pollEndBit m = true)
    (hrx : pollEndBit ew = true → s.busy = true → s.k.val ≤ 9 → rxByte m = BitVec.allOnes 8) :
    edge ew s = edge (ew &&& m) s := by
  have hr : rstBit (ew &&& m) = rstBit ew := by rw [rstBit_and, hrst, Bool.and_true]
  have ht : tickBit (ew &&& m) = tickBit ew := by rw [tickBit_and, htick, Bool.and_true]
  have hlink : linkWrites (ew &&& m) (s.driveFire false) = linkWrites ew (s.driveFire false) :=
    (linkWrites_congr
      (fun hb => by rw [pollBeginBit_and, hbegin hb, Bool.and_true])
      (fun hb => by rw [pollEndBit_and, hend hb, Bool.and_true])
      (fun he hb hk => by rw [rxByte_and, hrx he hb hk, BitVec.and_allOnes])).symm
  simp only [edge_eq, edgeNext, gateWrites, hr, ht, hlink]

/-- With `rst` no other bit of the word counts (R71 (1)). -/
theorem edge_of_rst {ew : EventWord} (s : State) (hr : rstBit ew = true) : edge ew s = .next s.toReset := by
  rw [edge_eq, edgeNext, if_pos hr]

/-- An edge at which no operation acts drives the ports and changes nothing else (R120, R161). -/
theorem edge_of_all_ignored {ew : EventWord} {s : State} (hr : rstBit ew = false) (ht : tickBit ew = false)
    (hbegin : ¬ (pollBeginBit ew = true ∧ s.busy = false)) (hend : ¬ (pollEndBit ew = true ∧ s.busy = true)) :
    edge ew s = .next ((s.driveFire false).drivePlan s.plan) := by
  have hgate : gateWrites ew (s.driveFire false) = s.driveFire false := by simp [gateWrites, ht]
  have hlink : linkWrites ew (s.driveFire false) = s.driveFire false := by
    unfold linkWrites
    cases hb : s.busy with
    | false =>
      have hp : pollBeginBit ew = false := by simpa [hb] using hbegin
      simp [hb, hp]
    | true =>
      have hp : pollEndBit ew = false := by simpa [hb] using hend
      simp [hb, hp]
  rw [edge_eq, edgeNext, hr, hgate, hlink]; rfl

/-- Settles O9: the first clause is the closed form of the edge, and a cleared bit is a mask that keeps the bits that count. -/
theorem ignoredBitsChangeNothing : Obligations.IgnoredBitsChangeNothing := by
  refine ⟨fun ew s => ⟨_, edge_eq ew s⟩, fun ew s hr => ?rst, fun ew s hb => ?pollBegin, fun ew s hb => ?pollEnd,
    fun ew s hr ht hbegin hend => ⟨_, edge_of_all_ignored hr ht hbegin hend, rfl⟩, fun ew s hn => ?rxByte⟩
  case rst => rw [edge_of_rst s hr, edge_of_rst s rfl]
  case pollBegin => exact edge_and_mask rfl rfl (by simp [hb]) (fun _ => rfl) (fun _ _ _ => rfl)
  case pollEnd => exact edge_and_mask rfl rfl (fun _ => rfl) (by simp [hb]) (fun _ _ _ => rfl)
  case rxByte =>
    exact edge_and_mask rfl rfl (fun _ => rfl) (fun _ => rfl) (fun he hb hk => absurd ⟨he, hb, hk⟩ hn)

/-! ## The coil tables (R80) -/

/-- PORT`i` of a tuple is bit `i - 1` of its pattern. -/
theorem coilOfTuple_getLsbD (p1 p2 p3 p4 : Bool) :
    (coilOfTuple p1 p2 p3 p4).getLsbD 0 = p1 ∧ (coilOfTuple p1 p2 p3 p4).getLsbD 1 = p2 ∧
      (coilOfTuple p1 p2 p3 p4).getLsbD 2 = p3 ∧ (coilOfTuple p1 p2 p3 p4).getLsbD 3 = p4 := by
  revert p1 p2 p3 p4; decide

/-- Settles O21: the CW entries are read off the table, and each CCW entry is the CW entry at the opposite index. -/
theorem coilTablesAsTuples : Obligations.CoilTablesAsTuples :=
  have h0 : coilTable .cw 0 = coilOfTuple true true false false := rfl
  have h1 : coilTable .cw 1 = coilOfTuple false true true false := rfl
  have h2 : coilTable .cw 2 = coilOfTuple false false true true := rfl
  have h3 : coilTable .cw 3 = coilOfTuple true false false true := rfl
  ⟨h0, h1, h2, h3, (coilTable_ccw 0).trans h3, (coilTable_ccw 1).trans h2, (coilTable_ccw 2).trans h1,
    (coilTable_ccw 3).trans h0, rfl, coilTable_ccw, coilOfTuple_getLsbD⟩

end Sys2Proof.Machine
end

section
/-! SUPPORT and PROOFS. The tick gate (40_tick_gate.md): one raw tick counts (R101) or fires (R102), what an edge hands on of the
gate's writes (R104), and the output `fire` (R103). -/

namespace Sys2Proof.Machine

open Sys2Proof

/-! ## One raw tick -/

theorem gateTick_val {N : Nat} (c : Fin N) : (gateTick c).1.val = (c.val + 1) % N := by
  rcases gateTick_cases c with ⟨hlt, hval, -⟩ | ⟨hlast, hval, -⟩
  · rw [hval, Nat.mod_eq_of_lt hlt]
  · rw [hval, hlast, Nat.mod_self]

theorem gateTick_fires {N : Nat} (c : Fin N) : (gateTick c).2 = decide (c.val + 1 = N) := by
  rcases gateTick_cases c with ⟨hlt, -, hfire⟩ | ⟨hlast, -, hfire⟩
  · rw [hfire, decide_eq_false hlt.ne]
  · rw [hfire, decide_eq_true hlast]

theorem State.gateLast_iff_val (s : State) : s.gateLast = true ↔ s.gate_cnt.val = Config.motorDiv - 1 := by
  rw [s.gateLast_iff]
  change _ + 1 = 4 ↔ _ = 3
  omega

theorem State.gateLast_eq_false {s : State} (h : s.gate_cnt.val ≠ Config.motorDiv - 1) : s.gateLast = false :=
  Bool.eq_false_iff.2 (mt s.gateLast_iff_val.1 h)

theorem State.advanceGate_gate_cnt_val (s : State) :
    s.advanceGate.gate_cnt.val = (s.gate_cnt.val + 1) % Config.motorDiv := gateTick_val s.gate_cnt

theorem State.advanceGate_fire (s : State) : s.advanceGate.ports.fire = s.gateLast := gateTick_fires s.gate_cnt

theorem State.advanceGate_gate_cnt_of_gateLast {s : State} (h : s.gateLast = true) : s.advanceGate.gate_cnt = 0 := by
  apply Fin.ext
  rw [s.advanceGate_gate_cnt_val, s.gateLast_iff.1 h, Nat.mod_self]; rfl

theorem State.advanceGate_gate_cnt_val_of_not_gateLast {s : State} (h : s.gateLast = false) :
    s.advanceGate.gate_cnt.val = s.gate_cnt.val + 1 := by
  have hne : s.gate_cnt.val + 1 ≠ Config.motorDiv := mt s.gateLast_iff.2 (Bool.eq_false_iff.1 h)
  rw [s.advanceGate_gate_cnt_val, Nat.mod_eq_of_lt (lt_of_le_of_ne s.gate_cnt.isLt hne)]

/-- A raw tick writes `gate_cnt` and the record of `fire`. -/
theorem State.advanceGate_eq (s : State) :
    s.advanceGate = { s with gate_cnt := s.advanceGate.gate_cnt, ports := { s.ports with fire := s.gateLast } } := by
  rw [← s.advanceGate_fire]; rfl

/-! ## The operations a raw tick selects -/

theorem State.variant_tick (s : State) :
    s.variant .tick = if s.gate_cnt.val = Config.motorDiv - 1 then .gateFire else .gateCount :=
  if_congr (s.gateLast_iff.symm.trans s.gateLast_iff_val) rfl rfl

/-- TICK does what its variant does (R104). -/
theorem exec_tick_eq_variant (s : State) : exec .tick s = exec (s.variant .tick) s := by
  have hgroup : exec .tick s = if s.gateLast then exec .gateFire s else exec .gateCount s := rfl
  simp only [hgroup, s.variant_tick, s.gateLast_iff_val]
  split <;> rfl

theorem tick_mem_operations {ew : EventWord} (s : State) (hr : ew.getLsbD 11 = false) (ht : ew.getLsbD 10 = true) :
    .tick ∈ (s.operations ew).ops :=
  (mem_eventOps_iff hr).2 (.inl ⟨rfl, ht⟩)

theorem exec_gateCount {s : State} (h : s.gateLast = false) : exec .gateCount s = .next s.advanceGate :=
  if_neg (by simp [h])

theorem exec_gateFire {s : State} (h : s.gateLast = true) :
    exec .gateFire s = .next (s.advanceGate.motorStep s.plan) :=
  if_pos h

/-! ## The motor step of a firing edge -/

/-- The decision chain of R150. -/
theorem State.motorCase_eq (s : State) :
    s.motorCase = if s.planEn = false then .mstepHold else if s.budget = 0 then .mstepIdle else .mstepStep := by
  simp [State.motorCase, motorVariant]

/-- At a firing edge the selected MSTEP operation takes the motor step of the plan held. -/
theorem exec_motorCase {s : State} (h : s.gateLast = true) : exec s.motorCase s = .next (s.motorStep s.plan) := by
  rw [s.motorCase_eq]
  obtain ⟨(hen : s.planEn = false), hm⟩ | ⟨(hen : s.planEn = true), (hb : s.budget = 0), hm⟩ |
    ⟨(hen : s.planEn = true), (hb : s.budget ≠ 0), hm⟩ := s.motorStep_cases s.plan <;> rw [hm, hen]
  · rfl
  · rw [if_neg nofun, if_pos hb]; rfl
  · rw [if_neg nofun, if_neg hb]
    exact if_pos (by rw [h, hen, decide_eq_true hb]; rfl)

/-- The motor step neither reads nor writes what the raw tick of its edge writes. -/
theorem State.motorStep_advanceGate (p : Plan) (s : State) :
    s.advanceGate.motorStep p =
      { s.motorStep p with
        gate_cnt := s.advanceGate.gate_cnt, ports := { (s.motorStep p).ports with fire := s.gateLast } } := by
  rw [← s.advanceGate_fire]
  unfold State.motorStep
  split_ifs <;> rfl

/-! ## What an edge hands on of the tick gate's writes -/

theorem gateWrites_of_tick {ew : EventWord} {s : State} (ht : tickBit ew = true) :
    (gateWrites ew s).gate_cnt = s.advanceGate.gate_cnt ∧ (gateWrites ew s).ports = s.advanceGate.ports := by
  rw [gateWrites, if_pos ht]
  split
  · obtain ⟨hgate, -, -, -, -, -, -, hports⟩ := s.advanceGate.motorStep_frame s.plan
    exact ⟨hgate, hports⟩
  · exact ⟨rfl, rfl⟩

theorem gateWrites_of_not_tick {ew : EventWord} {s : State} (ht : tickBit ew = false) : gateWrites ew s = s :=
  if_neg (by simp [ht])

/-- The parser and the planner leave what the tick gate and the motor sequencer have written at the edge (R34). -/
theorem edgeNext_of_not_rst {ew : EventWord} (s : State) (hr : rstBit ew = false) :
    (edgeNext ew s).gate_cnt = (gateWrites ew (s.driveFire false)).gate_cnt ∧
      sameMotor (gateWrites ew (s.driveFire false)) (edgeNext ew s) ∧
      (edgeNext ew s).ports.fire = (gateWrites ew (s.driveFire false)).ports.fire := by
  rw [edgeNext, if_neg (by simp [hr])]
  exact ⟨rfl, ⟨rfl, rfl, rfl⟩, rfl⟩

theorem edgeNext_of_rst {ew : EventWord} (s : State) (hr : rstBit ew = true) : edgeNext ew s = s.toReset :=
  if_pos hr

/-- The edge records the output `fire` (R103): RESET and an edge without a tick leave it low, a raw tick drives it. -/
theorem edgeNext_fire (ew : EventWord) (s : State) : (edgeNext ew s).ports.fire = s.fireOutput ew := by
  unfold State.fireOutput
  cases hr : rstBit ew with
  | true => rw [edgeNext_of_rst s hr]; rfl
  | false =>
    obtain ⟨-, -, hfire⟩ := edgeNext_of_not_rst s hr
    rw [hfire]
    cases ht : tickBit ew with
    | true =>
      obtain ⟨-, hports⟩ := gateWrites_of_tick (s := s.driveFire false) ht
      rw [hports, State.advanceGate_fire]; rfl
    | false => rw [gateWrites_of_not_tick ht]; rfl

/-! ## The statements -/

/-- Settles O16: the selected MSTEP operation and GATE.FIRE take the same motor step, and GATE.FIRE's own writes commute
with it. -/
theorem gateFireCarriesOneMotorStep : Obligations.GateFireCarriesOneMotorStep := by
  intro s hcnt
  have hlast : s.gateLast = true := s.gateLast_iff_val.2 hcnt
  obtain ⟨-, hk, hbusy, hsel, hframe, hangle, hstim, hports⟩ := s.motorStep_frame s.plan
  refine ⟨s.variant_tick.trans (if_pos hcnt), fun _ => tick_mem_operations s, s.motorCase_eq, s.motorStep s.plan,
    exec_motorCase hlast, ?_, ⟨hk, hbusy, hsel, hframe, hangle⟩, hstim, hports⟩
  rw [exec_gateFire hlast, s.motorStep_advanceGate, State.advanceGate_gate_cnt_of_gateLast hlast, hlast]

/-- Settles O17: each of the three clauses reads `gate_cnt` off the tick gate's writes. -/
theorem tickIsOneOfItsVariants : Obligations.TickIsOneOfItsVariants := by
  refine ⟨fun s => ?variant, fun ew s hr ht => ⟨_, edge_eq ew s, ?noTick⟩, fun ew s hr ht => ⟨_, edge_eq ew s, ?tick⟩⟩
  case variant =>
    have hvariant := exec_tick_variant s
    have hgate : (gateWrites 0x400#12 s).gate_cnt = s.advanceGate.gate_cnt := (gateWrites_of_tick rfl).1
    refine ⟨gateWrites 0x400#12 s, (exec_tick_eq_variant s).trans hvariant, s.variant_tick ▸ hvariant, ?_⟩
    rw [hgate, s.advanceGate_gate_cnt_val]
  case noTick =>
    obtain ⟨hgate, hmotor, -⟩ := edgeNext_of_not_rst s hr
    rw [gateWrites_of_not_tick ht] at hgate hmotor
    exact ⟨hgate, hmotor⟩
  case tick =>
    obtain ⟨hgate, -, -⟩ := edgeNext_of_not_rst s hr
    obtain ⟨hcount, -⟩ := gateWrites_of_tick (s := s.driveFire false) ht
    rw [hgate, hcount, State.advanceGate_gate_cnt_val]; rfl

/-- Settles O18: `fire` is the one port that reads the word, and the edge's record of it is that port. -/
theorem fireIsHighOnTheCompletingTick : Obligations.FireIsHighOnTheCompletingTick := by
  refine ⟨fun ew ew' s => rfl, fun ew s => ⟨?_, edgeNext ew s, edge_eq ew s, edgeNext_fire ew s⟩⟩
  change s.fireOutput ew = true ↔ _
  simp [s.fireOutput_eq, and_assoc]

/-- Settles O15: below the last count TICK is GATE.COUNT, which is one raw tick of the gate that does not fire. -/
theorem gateCountAddsOne : Obligations.GateCountAddsOne := by
  intro s hcnt
  have hlast : s.gateLast = false := State.gateLast_eq_false hcnt
  refine ⟨s.variant_tick.trans (if_neg hcnt), fun _ => tick_mem_operations s, s.advanceGate, exec_gateCount hlast,
    State.advanceGate_gate_cnt_val_of_not_gateLast hlast, s.advanceGate_fire.trans hlast, ?_⟩
  conv_lhs => rw [s.advanceGate_eq, hlast]

end Sys2Proof.Machine
end

section
/-! SUPPORT and PROOFS. The sensor frame parser (41_sensor_link.md): the poll strobe a word raises (R111, R112), the answer of each
of its operations where the registers select it (R111 to R116), and what a stored byte and a committed frame leave unchanged. -/

namespace Sys2Proof.Machine

open Sys2Proof

/-! ## The strobe that matches `busy` -/

theorem pollBegin_mem_operations {ew : EventWord} {s : State} (hr : ew.getLsbD 11 = false) (hp : ew.getLsbD 9 = true)
    (hb : s.busy = false) : .pollBegin ∈ (s.operations ew).ops :=
  (mem_eventOps_iff hr).2 (.inr (.inl (pollOp_eq_some_iff.2 (.inl ⟨rfl, hp, hb⟩))))

theorem pollEnd_mem_operations {ew : EventWord} {s : State} (hr : ew.getLsbD 11 = false) (hp : ew.getLsbD 8 = true)
    (hb : s.busy = true) : .pollEnd (rxByte ew) ∈ (s.operations ew).ops :=
  (mem_eventOps_iff hr).2 (.inr (.inl (pollOp_eq_some_iff.2 (.inr ⟨rfl, hp, hb⟩))))

/-! ## The answer of each operation -/

theorem exec_pollBegin {s : State} (hb : s.busy = false) : exec .pollBegin s = .next s.beginPoll :=
  if_neg (by simp [hb])

theorem exec_pollBegin_of_busy {s : State} (hb : s.busy = true) : exec .pollBegin s = .next s :=
  if_pos hb

theorem exec_pollEnd_of_not_busy (rx : Byte) {s : State} (hb : s.busy = false) : exec (.pollEnd rx) s = .next s :=
  if_pos (by simp [hb])

theorem exec_linkSync0 (rx : Byte) {s : State} (hb : s.busy = true) (hk : s.k.val = 0) :
    exec (.linkSync0 rx) s = .next ((s.storeByte 0 rx).endPoll 1) :=
  if_pos (by simp [hb, hk])

theorem exec_linkSync1 (rx : Byte) {s : State} (hb : s.busy = true) (hk : s.k.val = 1) :
    exec (.linkSync1 rx) s = .next ((s.storeByte 1 rx).endPoll 2) :=
  if_pos (by simp [hb, hk])

theorem exec_linkData (rx : Byte) {s : State} (hb : s.busy = true) (hlo : 2 ≤ s.k.val) (hhi : s.k.val < Config.frameLen) :
    exec (.linkData rx) s = .next ((s.storeByte ⟨s.k.val, hhi⟩ rx).endPoll ⟨s.k.val + 1, Nat.succ_lt_succ hhi⟩) :=
  dif_pos ⟨hb, hlo, hhi⟩

theorem exec_linkFinal {s : State} (hb : s.busy = true) (hk : s.k.val = Config.frameLen) :
    exec .linkFinal s = .next (s.commitAngle.endPoll 0) :=
  if_pos (by simp [hb, hk])

/-! ## POLL_END and its variants -/

theorem State.variant_pollEnd (rx : Byte) (s : State) : s.variant (.pollEnd rx) = linkVariant s.k rx := rfl

theorem variant_pollEnd_of_k_eq_zero (rx : Byte) {s : State} (hk : s.k.val = 0) :
    s.variant (.pollEnd rx) = .linkSync0 rx :=
  if_pos hk

theorem variant_pollEnd_of_k_eq_one (rx : Byte) {s : State} (hk : s.k.val = 1) :
    s.variant (.pollEnd rx) = .linkSync1 rx :=
  (if_neg (by omega)).trans (if_pos hk)

theorem variant_pollEnd_of_two_le_k (rx : Byte) {s : State} (hlo : 2 ≤ s.k.val) (hhi : s.k.val < Config.frameLen) :
    s.variant (.pollEnd rx) = .linkData rx :=
  (if_neg (by omega)).trans ((if_neg (by omega)).trans (if_pos hhi))

theorem variant_pollEnd_of_k_eq_frameLen (rx : Byte) {s : State} (hk : s.k.val = Config.frameLen) :
    s.variant (.pollEnd rx) = .linkFinal := by
  simp [s.variant_pollEnd, linkVariant, hk]

/-- While busy POLL_END does what its variant does: both decide on `k` alone. -/
theorem exec_pollEnd_eq_variant (rx : Byte) {s : State} (hb : s.busy = true) :
    exec (.pollEnd rx) s = exec (s.variant (.pollEnd rx)) s := by
  have hgroup : exec (.pollEnd rx) s = execPollEnd rx s := rfl
  rw [hgroup, s.variant_pollEnd, execPollEnd, linkVariant, if_neg (by simp [hb])]
  split_ifs <;> rfl

/-- Every variant of POLL_END ends the poll (R112). -/
theorem exec_variant_pollEnd_clears_busy (rx : Byte) {s : State} (hb : s.busy = true) :
    ∃ t, exec (s.variant (.pollEnd rx)) s = .next t ∧ t.busy = false := by
  rcases linkVariant_cases s.k rx with ⟨hk, h⟩ | ⟨hk, h⟩ | ⟨⟨hlo, hhi⟩, h⟩ | ⟨hk, h⟩ <;> rw [s.variant_pollEnd, h]
  · exact ⟨_, exec_linkSync0 rx hb hk, rfl⟩
  · exact ⟨_, exec_linkSync1 rx hb hk, rfl⟩
  · exact ⟨_, exec_linkData rx hb hlo hhi, rfl⟩
  · exact ⟨_, exec_linkFinal hb hk, rfl⟩

/-! ## A stored byte (R113 to R115) and a committed frame (R116) -/

theorem Memory.read_write (m : Memory) (i j : Fin Config.frameLen) (b : Byte) :
    Memory.read (Memory.write m i b) j = if j = i then b else Memory.read m j := by
  split
  · next h => rw [h, Memory.read_write_same]
  · next h => exact Memory.read_write_other m i j b h

/-- The raw field of 16 bits is the shift and the OR of the two bytes as R75 writes it. -/
theorem rawField_eq (m : Memory) :
    rawField m = (Memory.read m 2).setWidth 16 <<< 8 ||| (Memory.read m 3).setWidth 16 := by
  rw [rawField, BitVec.append_def, BitVec.shiftLeftZeroExtend_eq, BitVec.setWidth'_eq]

/-- The validity bit is bit 0 of `frame[3]` (R118). -/
theorem State.valid_eq (s : State) : s.valid = (Memory.read s.frame 3).getLsbD 0 := by
  rw [State.valid, rawValid, rawField, BitVec.getLsbD_append, if_pos (by decide)]

/-! ## The statements -/

/-- Settles O33: POLL_END and its variant decide on the same `k`, and each of the four variants ends the poll. -/
theorem pollEndIsOneOfItsVariants : Obligations.PollEndIsOneOfItsVariants := by
  refine ⟨fun rx s hb => ⟨variant_pollEnd_of_k_eq_zero rx, variant_pollEnd_of_k_eq_one rx,
    fun hlo hhi => variant_pollEnd_of_two_le_k rx hlo (Nat.lt_succ_of_le hhi), variant_pollEnd_of_k_eq_frameLen rx, ?_⟩,
    fun rx s hb => exec_pollEnd_of_not_busy rx hb, fun ew s hr hp hb => pollEnd_mem_operations hr hp hb⟩
  obtain ⟨t, ht, hbusy⟩ := exec_variant_pollEnd_clears_busy rx hb
  exact ⟨t, (exec_pollEnd_eq_variant rx hb).trans ht, ht, hbusy⟩

/-- Settles O36: the byte goes to the position that `k` names, read back by the rule of a read after a write. -/
theorem linkDataStoresAtThePosition : Obligations.LinkDataStoresAtThePosition := by
  intro rx s hb hlo hhi
  have hlt : s.k.val < Config.frameLen := Nat.lt_succ_of_le hhi
  refine ⟨if_neg (by omega), decide_eq_true hlt, _, exec_linkData rx hb hlo hlt, rfl, rfl, fun i => ?_, rfl⟩
  rw [State.endPoll_frame, State.storeByte_frame, Memory.read_write]
  exact if_congr Fin.ext_iff rfl rfl

/-- Settles O37: the commit takes the code of the raw field exactly when the validity bit of `frame[3]` is 1. -/
theorem linkFinalCommitsAValidFrame : Obligations.LinkFinalCommitsAValidFrame := by
  intro s hb hk
  have hangle : (s.commitAngle.endPoll 0).angle_code
      = if (Memory.read s.frame 3).getLsbD 0 then rawCode (rawField s.frame) else s.angle_code := by
    rw [State.endPoll_angle_code, State.commitAngle_angle_code, State.valid_eq]
  refine ⟨decide_eq_false (by simp [hk]), _, exec_linkFinal hb hk, rfl, rfl, fun hv => ?valid, fun hv => ?invalid, rfl⟩
  case valid => rw [hangle, if_pos hv, rawField_eq, rawCode]
  case invalid => rw [hangle, if_neg (Bool.eq_false_iff.1 hv)]

/-- Settles O32: POLL_BEGIN is `beginPoll` while not busy, and holds while busy. -/
theorem pollBeginDrivesTheSelectLine : Obligations.PollBeginDrivesTheSelectLine :=
  ⟨fun _ hb => exec_pollBegin hb, fun _ hb => exec_pollBegin_of_busy hb,
    fun _ _ hr hp hb => pollBegin_mem_operations hr hp hb⟩

/-- Settles O34: the byte is stored at index 0 without being looked at. -/
theorem linkSync0StoresTheFirstByte : Obligations.LinkSync0StoresTheFirstByte := fun rx s hb hk =>
  ⟨if_pos hk, decide_eq_true (by simp [hk]), _, exec_linkSync0 rx hb hk, rfl, rfl, Memory.read_write_same s.frame 0 rx,
    fun i hi => Memory.read_write_other s.frame 0 i rx hi, rfl⟩

/-- Settles O35: as LINK.SYNC0, at index 1. -/
theorem linkSync1StoresTheSecondByte : Obligations.LinkSync1StoresTheSecondByte := fun rx s hb hk =>
  ⟨if_neg (by omega), decide_eq_true (by simp [hk]), _, exec_linkSync1 rx hb hk, rfl, rfl,
    Memory.read_write_same s.frame 1 rx, fun i hi => Memory.read_write_other s.frame 1 i rx hi, rfl⟩

end Sys2Proof.Machine
end

section
/-! SUPPORT and PROOFS. The step planner (42_step_planner.md): the ranges of its three cases in codes and in degrees, the answer and
the outputs of each case (R136, R138, R139), and the value of each count (R133, R134). -/

namespace Sys2Proof.Machine

open Sys2Proof

/-! ## The ranges of the cases, in codes -/

theorem inDeadBand_iff (A : AngleCode) : inDeadBand A = true ↔ A.toNat ≤ 511 ∨ 15873 ≤ A.toNat := by
  rw [inDeadBand, Bool.or_eq_true, decide_eq_true_eq, decide_eq_true_eq]
  exact or_congr Nat.lt_succ_iff Iff.rfl

theorem inCwRange_iff (A : AngleCode) : inCwRange A = true ↔ 512 ≤ A.toNat ∧ A.toNat ≤ 8192 := by
  rw [inCwRange, Bool.and_eq_true, decide_eq_true_eq, decide_eq_true_eq]

theorem inCcwRange_iff (A : AngleCode) : inCcwRange A = true ↔ 8193 ≤ A.toNat ∧ A.toNat ≤ 15872 := by
  rw [inCcwRange, Bool.and_eq_true, decide_eq_true_eq, decide_eq_true_eq]; rfl

/-- `planOf_cases` with the ranges in numbers: no code is in two of them. -/
theorem planOf_cases_toNat (A : AngleCode) :
    ((A.toNat ≤ 511 ∨ 15873 ≤ A.toNat) ∧ planVariant A = .planNone A ∧ planOf A = planNoneOutputs A) ∨
      ((512 ≤ A.toNat ∧ A.toNat ≤ 8192) ∧ planVariant A = .planCw A ∧ planOf A = planCwOutputs A) ∨
      ((8193 ≤ A.toNat ∧ A.toNat ≤ 15872) ∧ planVariant A = .planCcw A ∧ planOf A = planCcwOutputs A) := by
  simpa only [inDeadBand_iff, inCwRange_iff, inCcwRange_iff] using planOf_cases A

theorem planVariant_eq_planNone_iff (A : AngleCode) :
    planVariant A = .planNone A ↔ A.toNat ≤ 511 ∨ 15873 ≤ A.toNat := by
  rcases planOf_cases_toNat A with ⟨hA, hv, -⟩ | ⟨hA, hv, -⟩ | ⟨hA, hv, -⟩ <;> rw [hv]
  · exact iff_of_true rfl hA
  · exact iff_of_false nofun (by omega)
  · exact iff_of_false nofun (by omega)

theorem planVariant_eq_planCw_iff (A : AngleCode) :
    planVariant A = .planCw A ↔ 512 ≤ A.toNat ∧ A.toNat ≤ 8192 := by
  rcases planOf_cases_toNat A with ⟨hA, hv, -⟩ | ⟨hA, hv, -⟩ | ⟨hA, hv, -⟩ <;> rw [hv]
  · exact iff_of_false nofun (by omega)
  · exact iff_of_true rfl hA
  · exact iff_of_false nofun (by omega)

theorem planVariant_eq_planCcw_iff (A : AngleCode) :
    planVariant A = .planCcw A ↔ 8193 ≤ A.toNat ∧ A.toNat ≤ 15872 := by
  rcases planOf_cases_toNat A with ⟨hA, hv, -⟩ | ⟨hA, hv, -⟩ | ⟨hA, hv, -⟩ <;> rw [hv]
  · exact iff_of_false nofun (by omega)
  · exact iff_of_false nofun (by omega)
  · exact iff_of_true rfl hA

/-! ## The planner on the codes of each case -/

theorem planOf_eq_planNoneOutputs {A : AngleCode} (hA : A.toNat ≤ 511 ∨ 15873 ≤ A.toNat) :
    planOf A = planNoneOutputs A := by
  obtain ⟨-, -, h⟩ := (planOf_cases_toNat A).resolve_right (by omega)
  exact h

theorem planOf_eq_planCwOutputs {A : AngleCode} (hlo : 512 ≤ A.toNat) (hhi : A.toNat ≤ 8192) :
    planOf A = planCwOutputs A := by
  obtain ⟨-, -, h⟩ := ((planOf_cases_toNat A).resolve_left (by omega)).resolve_right (by omega)
  exact h

theorem planOf_eq_planCcwOutputs {A : AngleCode} (hlo : 8193 ≤ A.toNat) (hhi : A.toNat ≤ 15872) :
    planOf A = planCcwOutputs A := by
  obtain ⟨-, -, h⟩ := ((planOf_cases_toNat A).resolve_left (by omega)).resolve_left (by omega)
  exact h

/-! ## The answer of each case -/

theorem exec_planNone (A : AngleCode) (s : State) : exec (.planNone A) s = .next (s.drivePlan (planNoneOutputs A)) := rfl

theorem exec_planCw (A : AngleCode) (s : State) : exec (.planCw A) s = .next (s.drivePlan (planCwOutputs A)) := rfl

theorem exec_planCcw (A : AngleCode) (s : State) : exec (.planCcw A) s = .next (s.drivePlan (planCcwOutputs A)) := rfl

/-! ## The counts -/

/-- The clockwise count is the code in whole step angles from 0 degrees (R133); it fits in `STEPS_W` bits for every code. -/
theorem cwCount_toNat (A : AngleCode) : (cwCount A).toNat = A.toNat / 512 := by
  have hfit : A.toNat / 512 < 2 ^ 5 := by have := A.isLt; omega
  rw [cwCount, BitVec.extractLsb'_toNat, Nat.shiftRight_eq_div_pow, Nat.mod_eq_of_lt hfit]

/-- The counter-clockwise count is the code in whole step angles from the half turn (R134); below it the subtraction wraps. -/
theorem ccwCount_toNat {A : AngleCode} (h : 8192 ≤ A.toNat) : (ccwCount A).toNat = (A.toNat - 8192) / 512 := by
  have hfit : (A.toNat - 8192) / 512 < 2 ^ 5 := by have := A.isLt; omega
  have hsub : (A - BitVec.ofNat 14 Config.halfCode).toNat = A.toNat - 8192 := BitVec.toNat_sub_of_le (BitVec.le_def.2 h)
  rw [ccwCount, BitVec.toNat_setWidth, BitVec.toNat_ushiftRight, hsub, Nat.shiftRight_eq_div_pow, Nat.mod_eq_of_lt hfit]

theorem cwCount_eq_ofNat (A : AngleCode) : cwCount A = BitVec.ofNat 5 (A.toNat / 512) := by
  rw [← cwCount_toNat, BitVec.ofNat_toNat, BitVec.setWidth_eq]

theorem ccwCount_eq_ofNat {A : AngleCode} (h : 8192 ≤ A.toNat) :
    ccwCount A = BitVec.ofNat 5 ((A.toNat - 8192) / 512) := by
  rw [← ccwCount_toNat h, BitVec.ofNat_toNat, BitVec.setWidth_eq]

theorem cwCount_eq_zero_iff (A : AngleCode) : cwCount A = 0 ↔ A.toNat ≤ 511 := by
  rw [BitVec.toNat_eq, cwCount_toNat]; change _ = 0 ↔ _; omega

theorem ccwCount_eq_zero_iff {A : AngleCode} (h : 8192 ≤ A.toNat) : ccwCount A = 0 ↔ A.toNat ≤ 8703 := by
  rw [BitVec.toNat_eq, ccwCount_toNat h]; change _ = 0 ↔ _; omega

/-! ## The borders of the cases, in degrees -/

/-- Degrees order the codes as their numbers do (R119). -/
theorem degreesOf_le_degreesOf_iff (A B : AngleCode) : degreesOf A ≤ degreesOf B ↔ A.toNat ≤ B.toNat := by
  have hpos : 0 < Config.degPerCode := by norm_num [Config.degPerCode]
  rw [degreesOf, degreesOf, mul_le_mul_iff_left₀ hpos, Nat.cast_le]

theorem degreesOf_stepCode : degreesOf 512#14 = 45 / 4 := by norm_num [degreesOf, Config.degPerCode]

theorem degreesOf_halfCode : degreesOf 8192#14 = 180 := by norm_num [degreesOf, Config.degPerCode]

theorem degreesOf_topCode : degreesOf 15872#14 = 1395 / 4 := by norm_num [degreesOf, Config.degPerCode]

theorem stepAngle_le_degreesOf_iff (A : AngleCode) : 45 / 4 ≤ degreesOf A ↔ 512 ≤ A.toNat :=
  degreesOf_stepCode ▸ degreesOf_le_degreesOf_iff 512#14 A

theorem degreesOf_le_halfTurn_iff (A : AngleCode) : degreesOf A ≤ 180 ↔ A.toNat ≤ 8192 :=
  degreesOf_halfCode ▸ degreesOf_le_degreesOf_iff A 8192#14

theorem degreesOf_le_topAngle_iff (A : AngleCode) : degreesOf A ≤ 1395 / 4 ↔ A.toNat ≤ 15872 :=
  degreesOf_topCode ▸ degreesOf_le_degreesOf_iff A 15872#14

/-! ## The statements -/

/-- Settles O46: in the dead-band the planner is PLAN.NONE's outputs, whose step count is 0 in either direction. -/
theorem planNoneDisablesMotion : Obligations.PlanNoneDisablesMotion := by
  refine ⟨fun A s _ => exec_planNone A s, fun A => (planVariant_eq_planNone_iff A).symm, fun A => ?degrees, fun A hA => ?outputs⟩
  case degrees =>
    rw [← not_le, ← not_le, stepAngle_le_degreesOf_iff, degreesOf_le_topAngle_iff]
    omega
  case outputs =>
    rw [planOf_eq_planNoneOutputs hA]
    have hcount : (planNoneOutputs A).stepCount = 0 := by rw [Plan.stepCount_eq]; exact ite_self _
    exact ⟨rfl, rfl, rfl, hcount, rfl⟩

/-- Settles O47: from 11.25 to 180 degrees the planner is PLAN.CW's outputs, and a code of at least one step angle counts at least
one step. -/
theorem planCwCountsFromZeroDegrees : Obligations.PlanCwCountsFromZeroDegrees := by
  have hne {A : AngleCode} (hlo : 512 ≤ A.toNat) : cwCount A ≠ 0 := fun h0 => by
    have := (cwCount_eq_zero_iff A).1 h0
    omega
  refine ⟨fun A s _ _ => ?answer, fun A => (planVariant_eq_planCw_iff A).symm, fun A => ?degrees,
    fun A hlo hhi => ?outputs, fun s hlo hhi => ?wouldStep⟩
  case answer => rw [exec_planCw, ← cwCount_eq_ofNat]; rfl
  case degrees => rw [stepAngle_le_degreesOf_iff, degreesOf_le_halfTurn_iff]
  case outputs =>
    rw [planOf_eq_planCwOutputs hlo hhi]
    exact ⟨rfl, rfl, cwCount_toNat A, rfl, rfl, hne hlo⟩
  case wouldStep =>
    rw [State.wouldStep_iff, State.plan, planOf_eq_planCwOutputs hlo hhi]
    exact ⟨rfl, hne hlo⟩

/-- Settles O48: above 180 degrees the planner is PLAN.CCW's outputs, whose count starts at the half turn, so that it is still 0 for
the codes of the first step angle. -/
theorem planCcwCountsFromHalfTurn : Obligations.PlanCcwCountsFromHalfTurn := by
  refine ⟨fun A s hlo _ => ?answer, fun A => (planVariant_eq_planCcw_iff A).symm, fun A => ?degrees, fun A hlo hhi => ?outputs⟩
  case answer => rw [exec_planCcw, ← ccwCount_eq_ofNat (Nat.le_of_succ_le hlo)]; rfl
  case degrees =>
    rw [← not_le, degreesOf_le_halfTurn_iff, degreesOf_le_topAngle_iff]
    omega
  case outputs =>
    have hhalf : 8192 ≤ A.toNat := Nat.le_of_succ_le hlo
    rw [planOf_eq_planCcwOutputs hlo hhi]
    exact ⟨rfl, rfl, rfl, ccwCount_toNat hhalf, rfl, ccwCount_eq_zero_iff hhalf⟩

end Sys2Proof.Machine
end

section
/-! SUPPORT and PROOFS. The motor sequencer (43_motor_sequencer.md): the three cases of the motor step (R147 to R150), what a firing
edge writes with it (R102, R145), and a run of raw ticks under a plan that steps (R153). -/

namespace Sys2Proof.Machine

open Sys2Proof

/-! ## The motor step, case by case (R150) -/

theorem State.motorStep_of_disabled {p : Plan} (s : State) (hen : p.en = false) : s.motorStep p = s :=
  if_pos (by rw [hen]; rfl)

theorem State.motorStep_of_enabled {p : Plan} (s : State) (hen : p.en = true) :
    s.motorStep p = if p.stepCount = 0 then s else s.stepCoil p.dir := by
  rw [State.motorStep, hen, if_neg (by simp), ite_not]

theorem State.motorStep_of_stepCount_eq_zero {p : Plan} (s : State) (hen : p.en = true) (hb : p.stepCount = 0) :
    s.motorStep p = s :=
  (s.motorStep_of_enabled hen).trans (if_pos hb)

theorem State.motorStep_of_stepCount_ne_zero {p : Plan} (s : State) (hen : p.en = true) (hb : p.stepCount ≠ 0) :
    s.motorStep p = s.stepCoil p.dir :=
  (s.motorStep_of_enabled hen).trans (if_neg hb)

theorem State.motorStep_plan_of_wouldStep {s : State} (h : s.wouldStep = true) :
    s.motorStep s.plan = s.stepCoil s.plan.dir := by
  obtain ⟨hen, hb⟩ := s.wouldStep_iff.1 h
  exact s.motorStep_of_stepCount_ne_zero hen hb

/-- Of the plan the motor step reads the enable, the direction, and whether the count is zero (R153). -/
theorem State.motorStep_congr {p q : Plan} (s : State) (hen : p.en = q.en) (hdir : p.dir = q.dir)
    (hcount : p.stepCount = 0 ↔ q.stepCount = 0) : s.motorStep p = s.motorStep q := by
  cases hq : q.en with
  | false => rw [s.motorStep_of_disabled hq, s.motorStep_of_disabled (hen.trans hq)]
  | true =>
    rw [s.motorStep_of_enabled hq, s.motorStep_of_enabled (hen.trans hq), hdir]
    exact if_congr hcount rfl rfl

/-- Of the state the motor step reads the motor sequencer's registers. -/
theorem sameMotor.motorStep {s t : State} (h : sameMotor s t) (p : Plan) : sameMotor (s.motorStep p) (t.motorStep p) := by
  obtain ⟨hen, hm⟩ | ⟨hen, hb, hm⟩ | ⟨hen, hb, hm⟩ := s.motorStep_cases p <;> rw [hm]
  · rwa [t.motorStep_of_disabled hen]
  · rwa [t.motorStep_of_stepCount_eq_zero hen hb]
  · obtain ⟨hstep, -, htotal⟩ := h
    rw [t.motorStep_of_stepCount_ne_zero hen hb]
    exact ⟨congrArg (· + 1) hstep, congrArg (coilEntry p.dir) hstep, congrArg StepCounter.next htotal⟩

/-! ## GATE.FIRE with the motor step it carries (R102) -/

/-- GATE.FIRE is the motor step of the plan held, with `gate_cnt` back at 0 and `fire` high. -/
theorem exec_gateFire_eq {s : State} (h : s.gateLast = true) :
    exec .gateFire s = .next
      { s.motorStep s.plan with gate_cnt := 0, ports := { (s.motorStep s.plan).ports with fire := true } } := by
  rw [exec_gateFire h, s.motorStep_advanceGate, State.advanceGate_gate_cnt_of_gateLast h, h]

/-- Where the motor step holds, GATE.FIRE changes only `gate_cnt` and `fire`. -/
theorem exec_gateFire_of_motorStep_eq {s : State} (h : s.gateLast = true) (hm : s.motorStep s.plan = s) :
    exec .gateFire s = .next { s with gate_cnt := 0, ports := { s.ports with fire := true } } := by
  rw [exec_gateFire_eq h, hm]

/-- MSTEP.STEP where the registers select it (R148). -/
theorem exec_mstepStep {s : State} (h : s.gateLast = true) (hen : s.planEn = true) (hb : s.budget ≠ 0) :
    exec .mstepStep s = .next (s.stepCoil s.plan.dir) :=
  if_pos (by rw [h, hen, decide_eq_true hb]; rfl)

/-! ## The planner as the source of the budget (R149) -/

/-- The planner enables motion with nothing to do exactly in the first step angle above the half turn. -/
theorem planOf_en_and_stepCount_eq_zero_iff (A : AngleCode) :
    ((planOf A).en = true ∧ (planOf A).stepCount = 0) ↔ (8193 ≤ A.toNat ∧ A.toNat ≤ 8703) := by
  rcases planOf_cases_toNat A with ⟨hA, -, hp⟩ | ⟨⟨hlo, hhi⟩, -, hp⟩ | ⟨⟨hlo, hhi⟩, -, hp⟩ <;> rw [hp]
  · exact iff_of_false (fun ⟨hen, _⟩ => Bool.false_ne_true hen) (by omega)
  · have hne : cwCount A ≠ 0 := fun h0 => by have := (cwCount_eq_zero_iff A).1 h0; omega
    exact iff_of_false (fun ⟨_, h0⟩ => hne h0) (by omega)
  · have hzero : (planCcwOutputs A).stepCount = 0 ↔ A.toNat ≤ 8703 := ccwCount_eq_zero_iff (by omega)
    rw [hzero]
    exact and_congr_left' (iff_of_true rfl hlo)

/-! ## The motor sequencer at an edge (R145) -/

theorem State.fireOutput_of_not_rst {ew : EventWord} (s : State) (hr : rstBit ew = false) :
    s.fireOutput ew = (tickBit ew && s.gateLast) := by
  rw [State.fireOutput, hr]; rfl

/-- At an edge that does not fire the motor sequencer's registers hold. -/
theorem edgeNext_sameMotor_of_not_fire {ew : EventWord} {s : State} (hr : rstBit ew = false)
    (hf : s.fireOutput ew = false) : sameMotor s (edgeNext ew s) := by
  obtain ⟨-, hmotor, -⟩ := edgeNext_of_not_rst s hr
  rw [s.fireOutput_of_not_rst hr] at hf
  cases ht : tickBit ew with
  | false => rwa [gateWrites_of_not_tick ht] at hmotor
  | true =>
    have hlast : (s.driveFire false).gateLast = false := by rwa [ht] at hf
    rwa [gateWrites, if_pos ht, hlast, if_neg nofun] at hmotor

/-- At a firing edge they take the motor step of the plan held before it: the gate's own writes are not the motor's to read. -/
theorem edgeNext_sameMotor_of_fire {ew : EventWord} {s : State} (hr : rstBit ew = false)
    (hf : s.fireOutput ew = true) : sameMotor (s.motorStep s.plan) (edgeNext ew s) := by
  obtain ⟨-, ⟨hstep, hcoil, htotal⟩, -⟩ := edgeNext_of_not_rst s hr
  rw [s.fireOutput_of_not_rst hr, Bool.and_eq_true] at hf
  obtain ⟨ht, hlast⟩ := hf
  have hgate : gateWrites ew (s.driveFire false) = (s.driveFire false).advanceGate.motorStep s.plan :=
    (if_pos ht).trans (if_pos hlast)
  have hsame : sameMotor s (s.driveFire false).advanceGate := sameMotor_refl s
  obtain ⟨hstep', hcoil', htotal'⟩ := hsame.motorStep s.plan
  rw [hgate] at hstep hcoil htotal
  exact ⟨hstep.trans hstep', hcoil.trans hcoil', htotal.trans htotal'⟩

/-- `total_steps` counts the firing edges at which the motor would step. -/
theorem edgeNext_total_steps_of_wouldStep {ew : EventWord} {s : State} (hr : rstBit ew = false) (hw : s.wouldStep = true) :
    (edgeNext ew s).total_steps = s.total_steps.plus (s.fireOutput ew).toNat := by
  cases hf : s.fireOutput ew with
  | false =>
    obtain ⟨-, -, htotal⟩ := edgeNext_sameMotor_of_not_fire hr hf
    exact htotal.trans s.total_steps.plus_zero.symm
  | true =>
    obtain ⟨-, -, htotal⟩ := edgeNext_sameMotor_of_fire hr hf
    rw [htotal, State.motorStep_plan_of_wouldStep hw]; rfl

/-! ## A run of raw ticks under a plan that steps (R153) -/

theorem sameLink.trans {s t u : State} (hst : sameLink s t) (htu : sameLink t u) : sameLink s u := by
  obtain ⟨hk, hbusy, hsel, hframe, hangle⟩ := hst
  obtain ⟨hk', hbusy', hsel', hframe', hangle'⟩ := htu
  exact ⟨hk'.trans hk, hbusy'.trans hbusy, hsel'.trans hsel, hframe'.trans hframe, hangle'.trans hangle⟩

theorem sameLink.plan_eq {s t : State} (h : sameLink s t) : t.plan = s.plan := by
  obtain ⟨-, -, -, -, hangle⟩ := h
  exact congrArg planOf hangle

theorem sameLink.wouldStep {s t : State} (h : sameLink s t) (hw : s.wouldStep = true) : t.wouldStep = true := by
  rwa [State.wouldStep_iff, h.plan_eq, ← State.wouldStep_iff]

theorem StepCounter.plus_plus (c : StepCounter) (m n : Nat) : (c.plus m).plus n = c.plus (m + n) :=
  congrArg (StepCounter.mk c.width) (by rw [BitVec.ofNat_add, ← BitVec.add_assoc]; rfl)

theorem linkWrites_of_not_poll {ew : EventWord} (s : State) (hbegin : pollBeginBit ew = false) (hend : pollEndBit ew = false) :
    linkWrites ew s = s := by
  simp [linkWrites, hbegin, hend]

/-- The tick gate, the motor sequencer and the planner leave what the parser has written at the edge (R34). -/
theorem edgeNext_sameLink {ew : EventWord} (s : State) (hr : rstBit ew = false) :
    sameLink (linkWrites ew (s.driveFire false)) (edgeNext ew s) := by
  rw [edgeNext, if_neg (by simp [hr])]
  exact ⟨rfl, rfl, rfl, rfl, rfl⟩

/-- What `n` raw ticks make of a state whose motor would step: the gate goes round, every passage through its last count takes one
step, and the parser holds. -/
structure TicksTaken (n : Nat) (s t : State) : Prop where
  gate_cnt : t.gate_cnt.val = (s.gate_cnt.val + n) % Config.motorDiv
  total_steps : t.total_steps = s.total_steps.plus ((s.gate_cnt.val + n) / Config.motorDiv)
  link : sameLink s t

theorem TicksTaken.zero (s : State) : TicksTaken 0 s s where
  gate_cnt := (Nat.mod_eq_of_lt s.gate_cnt.isLt).symm
  total_steps := by rw [Nat.add_zero, Nat.div_eq_of_lt s.gate_cnt.isLt, StepCounter.plus_zero]
  link := sameLink_refl s

theorem TicksTaken.trans {m n : Nat} {s t u : State} (hst : TicksTaken m s t) (htu : TicksTaken n t u) :
    TicksTaken (m + n) s u where
  gate_cnt := by rw [htu.gate_cnt, hst.gate_cnt, Nat.mod_add_mod, Nat.add_assoc]
  total_steps := by
    have hpass (c : Nat) : c / 4 + (c % 4 + n) / 4 = (c + n) / 4 := by omega
    rw [htu.total_steps, hst.total_steps, hst.gate_cnt, StepCounter.plus_plus, hpass, Nat.add_assoc]
  link := hst.link.trans htu.link

theorem ticksTaken_edgeNext {s : State} (hw : s.wouldStep = true) : TicksTaken 1 s (edgeNext (lineWord .TICK) s) where
  gate_cnt := by
    obtain ⟨hgate, -, -⟩ := edgeNext_of_not_rst (ew := lineWord .TICK) s rfl
    rw [hgate, (gateWrites_of_tick rfl).1, State.advanceGate_gate_cnt_val]; rfl
  total_steps := by
    have hfire : (s.fireOutput (lineWord .TICK)).toNat = (s.gate_cnt.val + 1) / Config.motorDiv := by
      change (decide (s.gate_cnt.val + 1 = 4)).toNat = (s.gate_cnt.val + 1) / 4
      generalize s.gate_cnt = c
      revert c; decide
    rw [edgeNext_total_steps_of_wouldStep rfl hw, hfire]
  link := by
    have h := edgeNext_sameLink (ew := lineWord .TICK) s rfl
    rwa [linkWrites_of_not_poll _ rfl rfl] at h

theorem runEdges_ticks (n : Nat) {s : State} (hw : s.wouldStep = true) :
    ∃ t, runEdges (stimulusWords (tickLines n)) s = .next t ∧ TicksTaken n s t := by
  induction n generalizing s with
  | zero => exact ⟨s, rfl, .zero s⟩
  | succ n ih =>
    have hfirst := ticksTaken_edgeNext hw
    obtain ⟨t, hrun, hrest⟩ := ih (hfirst.link.wouldStep hw)
    refine ⟨t, ?_, Nat.add_comm 1 n ▸ hfirst.trans hrest⟩
    change andThen (edge (lineWord .TICK) s) (runEdges (stimulusWords (tickLines n))) = _
    rw [edge_eq, andThen_next, hrun]

/-! ## The statements -/

/-- Settles O29: `n` groups of four ticks pass the gate's last count `n` times, and the plan they step by is never used up. -/
theorem budgetIsNotConsumed : Obligations.BudgetIsNotConsumed := by
  refine ⟨fun p q s => s.motorStep_congr, fun n s hcnt hw => ?_⟩
  obtain ⟨t, hrun, hticks⟩ := runEdges_ticks (4 * n) hw
  have hzero : s.gate_cnt.val = 0 := congrArg Fin.val hcnt
  have hgate : (s.gate_cnt.val + 4 * n) % 4 = 0 := by omega
  have hsteps : (s.gate_cnt.val + 4 * n) / 4 = n := by omega
  refine ⟨t, hrun, Fin.ext (hticks.gate_cnt.trans hgate), hticks.link, hticks.link.plan_eq, ?_⟩
  rw [hticks.total_steps, hsteps]

/-- Settles O26: the two clauses are the edges that do not fire and those that do. -/
theorem motorActsOnlyAtFiringEdges : Obligations.MotorActsOnlyAtFiringEdges := fun ew s hr =>
  ⟨edgeNext ew s, edge_eq ew s, edgeNext_sameMotor_of_not_fire hr, edgeNext_sameMotor_of_fire hr⟩

/-- Settles O23: the motor step is one coil step, and its counter wraps by the counter's own law. -/
theorem mstepStepTakesOneCoilStep : Obligations.MstepStepTakesOneCoilStep := by
  refine ⟨fun w n => StepCounter.next_count ⟨w, n⟩, fun s hcnt hen hb => ?_⟩
  have hlast : s.gateLast = true := s.gateLast_iff_val.2 hcnt
  have hcase : s.motorCase = .mstepStep := by rw [s.motorCase_eq, hen, if_neg nofun, if_neg hb]
  have hfire := exec_gateFire_eq hlast
  rw [s.motorStep_of_stepCount_ne_zero hen hb] at hfire
  exact ⟨hcase, s.stepCoil s.plan.dir, exec_mstepStep hlast hen hb, rfl, s.total_steps.next_count, rfl,
    Fin.val_add s.coil_step 1, rfl, rfl, hfire⟩

/-- Settles O24: with a count of zero the motor step holds, whatever the other direction's count is. -/
theorem mstepIdleWritesNothing : Obligations.MstepIdleWritesNothing := by
  refine ⟨fun _ => rfl, fun s hcnt hen hb => ⟨?selected, ?fire⟩, fun s => planOf_en_and_stepCount_eq_zero_iff s.angle_code,
    fun p s hen hdir h0 => ?cw, fun p s hen hdir h0 => ?ccw⟩
  case selected => rw [s.motorCase_eq, hen, if_neg nofun, if_pos hb]
  case fire => exact exec_gateFire_of_motorStep_eq (s.gateLast_iff_val.2 hcnt) (s.motorStep_of_stepCount_eq_zero hen hb)
  case cw => exact s.motorStep_of_stepCount_eq_zero hen (by rw [Plan.stepCount, hdir]; exact h0)
  case ccw => exact s.motorStep_of_stepCount_eq_zero hen (by rw [Plan.stepCount, hdir]; exact h0)

/-- Settles O22: with motion disabled the motor step holds. -/
theorem mstepHoldWritesNothing : Obligations.MstepHoldWritesNothing :=
  ⟨fun _ => rfl, fun s hcnt hen => ⟨s.motorCase_eq.trans (if_pos hen),
    exec_gateFire_of_motorStep_eq (s.gateLast_iff_val.2 hcnt) (s.motorStep_of_disabled hen)⟩⟩

/-- Settles O25: the three cases of the motor step, with the budget read as the count of the commanded direction. -/
theorem motorStepDecidesInOrder : Obligations.MotorStepDecidesInOrder := by
  intro p s budget
  have hbudget : p.stepCount = budget := p.stepCount_eq
  rw [← hbudget]
  exact ⟨rfl, s.motorStep_of_disabled, s.motorStep_of_stepCount_ne_zero, s.motorStep_of_stepCount_eq_zero⟩

end Sys2Proof.Machine
end

section
/-! SUPPORT and PROOFS. RESET and NOP (44_system_ops.md): the value of every register after RESET (R160), the words that select NOP,
and why the ports that an edge shows are nothing to the edges after it (R161). -/

namespace Sys2Proof.Machine

open Sys2Proof

/-! ## RESET (R160) -/

theorem exec_reset (s : State) : exec .reset s = .next s.toReset := rfl

/-- A frame buffer that lists no cell reads as the reset value everywhere. -/
@[simp] theorem Memory.read_nil (i : Fin Config.frameLen) : Memory.read [] i = 0x00#8 := rfl

/-! ## The words that select NOP (R71 (5)) -/

theorem pollOp_ne_some_nop (busy : Bool) (ew : EventWord) : pollOp busy ew ≠ some .nop := by
  simp [pollOp_eq_some_iff]

/-- NOP is the set of an edge exactly where neither RESET, nor the tick gate, nor the parser acts. -/
theorem eventOps_eq_single_nop_iff {busy : Bool} {ew : EventWord} :
    eventOps busy ew = .single .nop ↔ rstBit ew = false ∧ tickBit ew = false ∧ pollOp busy ew = none := by
  cases hr : rstBit ew with
  | true => simp [eventOps_of_rst hr]
  | false =>
    simp only [eventOps, hr, Bool.false_eq_true, if_false]
    cases hp : pollOp busy ew with
    | none => cases tickBit ew <;> simp
    | some i =>
      have hi : i ≠ .nop := fun h => pollOp_ne_some_nop busy ew (h ▸ hp)
      cases tickBit ew <;> simp [hi]

/-! ## No edge reads the ports (R30, R161) -/

theorem State.motorStep_drivePlan (p q : Plan) (s : State) :
    (s.drivePlan p).motorStep q = (s.motorStep q).drivePlan p := by
  unfold State.motorStep
  split_ifs <;> rfl

theorem gateWrites_drivePlan (ew : EventWord) (p : Plan) (s : State) :
    gateWrites ew (s.drivePlan p) = (gateWrites ew s).drivePlan p := by
  have hlast : (s.drivePlan p).gateLast = s.gateLast := rfl
  have hadvance : (s.drivePlan p).advanceGate = s.advanceGate.drivePlan p := rfl
  rw [gateWrites, gateWrites, hlast, hadvance, State.drivePlan_plan, State.motorStep_drivePlan]
  split_ifs <;> rfl

theorem linkWrites_drivePlan (ew : EventWord) (p : Plan) (s : State) :
    linkWrites ew (s.drivePlan p) = (linkWrites ew s).drivePlan p := by
  unfold linkWrites
  simp only [apply_ite (State.drivePlan p), apply_dite (State.drivePlan p)]
  rfl

/-- The planner's outputs shown before an edge do not matter: the edge shows those of the new `angle_code`. -/
theorem edge_drivePlan (ew : EventWord) (p : Plan) (s : State) : edge ew (s.drivePlan p) = edge ew s := by
  have hfire : (s.drivePlan p).driveFire false = (s.driveFire false).drivePlan p := rfl
  rw [edge_eq, edge_eq, edgeNext, edgeNext, hfire, gateWrites_drivePlan, linkWrites_drivePlan]
  rfl

/-- The `fire` shown before an edge does not matter: the edge starts by driving it low. -/
theorem edge_driveFire (ew : EventWord) (b : Bool) (s : State) : edge ew (s.driveFire b) = edge ew s := rfl

/-! ## The statements -/

/-- Settles O13: at an edge that selects NOP nothing but the ports is driven, and no later edge reads them. -/
theorem nopChangesNoRegister : Obligations.NopChangesNoRegister := by
  have hselect (ew : EventWord) (s : State) : s.operations ew = .single .nop ↔
      rstBit ew = false ∧ tickBit ew = false ∧ ¬ (pollBeginBit ew = true ∧ s.busy = false) ∧
        ¬ (pollEndBit ew = true ∧ s.busy = true) := by
    rw [State.operations, eventOps_eq_single_nop_iff, pollOp_eq_none_iff]
  refine ⟨fun s => rfl, hselect, fun ew s hnop => ?_⟩
  obtain ⟨hr, ht, hbegin, hend⟩ := (hselect ew s).1 hnop
  refine ⟨(s.driveFire false).drivePlan s.plan, edge_of_all_ignored hr ht hbegin hend, rfl, rfl, fun ew' => ?_⟩
  rw [edge_drivePlan, edge_driveFire]

/-- Settles O11: RESET leaves `State.toReset`, and so does every edge with `rst`, whatever its other bits are. -/
theorem resetWritesEveryRegister : Obligations.ResetWritesEveryRegister :=
  ⟨fun s => ⟨s.toReset, exec_reset s, s.toReset_gate_cnt, s.toReset_coil_step, congrArg Coil.bits s.toReset_coil, rfl, rfl,
      s.toReset_k, s.toReset_busy, s.toReset_sel_n, Memory.read_nil, s.toReset_frame, s.toReset_angle_code,
      s.toReset_stimulus⟩,
    fun _ s hr => (edge_of_rst s hr).trans (exec_reset s).symm⟩

end Sys2Proof.Machine
end

section
/-! SUPPORT and PROOFS. Exceptions (60_exceptions.md): the hardware raises none, so every operation, every edge and every step
answers a next state (R170). -/

namespace Sys2Proof.Machine

open Sys2Proof

/-- An operation that acts under a condition and otherwise holds answers a next state on both sides. -/
theorem exists_next_of_ite {c : Prop} [Decidable c] {a b : State} :
    ∃ t, (if c then .next a else .next b : Host.Outcome State Fault Refusal) = .next t :=
  ⟨if c then a else b, (apply_ite Host.Outcome.next c a b).symm⟩

theorem exec_tick_exists_next (s : State) : ∃ t, exec .tick s = .next t :=
  ⟨_, (exec_tick_eq_variant s).trans (exec_tick_variant s)⟩

theorem exec_linkData_exists_next (rx : Byte) (s : State) : ∃ t, exec (.linkData rx) s = .next t := by
  by_cases h : s.busy = true ∧ 2 ≤ s.k.val ∧ s.k.val < Config.frameLen
  · obtain ⟨hb, hlo, hhi⟩ := h
    exact ⟨_, exec_linkData rx hb hlo hhi⟩
  · exact ⟨s, dif_neg h⟩

theorem exec_pollEnd_exists_next (rx : Byte) (s : State) : ∃ t, exec (.pollEnd rx) s = .next t := by
  cases hb : s.busy with
  | false => exact ⟨s, exec_pollEnd_of_not_busy rx hb⟩
  | true =>
    obtain ⟨t, ht, -⟩ := exec_variant_pollEnd_clears_busy rx hb
    exact ⟨t, (exec_pollEnd_eq_variant rx hb).trans ht⟩

/-- No operation faults or is refused, in any state: not even where the registers do not select it. -/
theorem exec_exists_next (i : Instr) (s : State) : ∃ t, exec i s = .next t := by
  cases i with
  | reset | nop | mstepHold | mstepIdle | planNone A | planCw A | planCcw A => exact ⟨_, rfl⟩
  | gateCount | gateFire | mstepStep | pollBegin | linkSync0 rx | linkSync1 rx | linkFinal => exact exists_next_of_ite
  | tick => exact exec_tick_exists_next s
  | linkData rx => exact exec_linkData_exists_next rx s
  | pollEnd rx => exact exec_pollEnd_exists_next rx s

/-- Settles O8: the operations one by one, the edge and the step by their closed forms; `Fault` has no constructor. -/
theorem everyStateAndWordHasAStep : Obligations.EveryStateAndWordHasAStep :=
  ⟨exec_exists_next, fun ew s => ⟨_, edge_eq ew s⟩, fun s => ⟨_, step_eq s⟩, nofun⟩

end Sys2Proof.Machine
end

section
/-! SUPPORT and PROOFS. Reset (70_reset_and_hazards.md): the planner and the tick gate in the state after reset, and the outputs
that follow from them (R191). -/

namespace Sys2Proof.Machine

open Sys2Proof

/-! ## The combinational functions in the state after reset -/

/-- The reset value of `angle_code` lies in the dead-band, so motion is disabled until a frame commits. -/
theorem State.resetWith_plan (totalW : Nat) : (State.resetWith totalW).plan = planNoneOutputs 0#14 :=
  planOf_eq_planNoneOutputs (.inl (Nat.zero_le 511))

/-- The first raw tick after reset completes no group, since `MOTOR_DIV` is more than 1. -/
theorem State.resetWith_gateLast (totalW : Nat) : (State.resetWith totalW).gateLast = false := rfl

theorem State.resetWith_fireOutput (totalW : Nat) (ew : EventWord) : (State.resetWith totalW).fireOutput ew = false := by
  rw [State.fireOutput, State.resetWith_gateLast, Bool.and_false]

/-- The four ports that the planner's outputs set directly, and `step_count` (R135), which is the clockwise count there. -/
theorem State.resetWith_outputs_plan (totalW : Nat) (ew : EventWord) :
    let o := (State.resetWith totalW).outputs ew
    o.plan_en = false ∧ o.plan_dir = directionBit .cw ∧ o.steps_cw = 0 ∧ o.steps_ccw = 0 ∧ o.step_count = 0 := by
  simp only [State.outputs, State.resetWith_plan]
  exact ⟨rfl, rfl, rfl, rfl, rfl⟩

/-! ## The statement -/

/-- Settles O12: the registers, `tx_byte` and `xfer` are those of the state's definition; `fire` is the tick gate's and the other
ports the planner's. -/
theorem stateAfterReset : Obligations.StateAfterReset :=
  ⟨rfl, fun totalW => ⟨rfl, rfl, rfl, rfl, rfl, rfl, rfl, rfl, Memory.read_nil, rfl,
    fun ew => ⟨rfl, rfl, State.resetWith_fireOutput totalW ew, State.resetWith_outputs_plan totalW ew⟩⟩⟩

end Sys2Proof.Machine
end

section
/-! SUPPORT and PROOFS. Encoding (30_encoding.md section 1): the strobes of the encoder's words, the rows that are active at an
edge, and the round trip in both directions (R71, R72, R85). -/

namespace Sys2Proof.Machine

open Sys2Proof

/-! ## The fields of the encoder's words (R70, R85) -/

theorem rstBit_or (a b : EventWord) : rstBit (a ||| b) = (rstBit a || rstBit b) := BitVec.getLsbD_or

theorem tickBit_or (a b : EventWord) : tickBit (a ||| b) = (tickBit a || tickBit b) := BitVec.getLsbD_or

theorem pollEndBit_or (a b : EventWord) : pollEndBit (a ||| b) = (pollEndBit a || pollEndBit b) := BitVec.getLsbD_or

theorem rxByte_or (a b : EventWord) : rxByte (a ||| b) = rxByte a ||| rxByte b := BitVec.extractLsb'_or

/-- In the word `p ++ rx` the four strobes are `p`. -/
theorem getLsbD_append_byte (p : BitVec 4) (rx : Byte) (j : Nat) :
    (p ++ rx : EventWord).getLsbD (8 + j) = p.getLsbD j := by
  rw [BitVec.getLsbD_append, if_neg (by omega), Nat.add_sub_cancel_left]

@[simp] theorem rstBit_pollEndWord (rx : Byte) : rstBit (0x1#4 ++ rx) = false := getLsbD_append_byte _ rx 3

@[simp] theorem tickBit_pollEndWord (rx : Byte) : tickBit (0x1#4 ++ rx) = false := getLsbD_append_byte _ rx 2

@[simp] theorem pollBeginBit_pollEndWord (rx : Byte) : pollBeginBit (0x1#4 ++ rx) = false := getLsbD_append_byte _ rx 1

@[simp] theorem pollEndBit_pollEndWord (rx : Byte) : pollEndBit (0x1#4 ++ rx) = true := getLsbD_append_byte _ rx 0

@[simp] theorem rxByte_pollEndWord (rx : Byte) : rxByte (0x1#4 ++ rx) = rx :=
  BitVec.extractLsb'_append_eq_right

/-! ## Decode of encode, sets and single events (R71) -/

theorem eventOps_of_poll {busy : Bool} {ew : EventWord} {i : Instr} (hr : rstBit ew = false) (hp : pollOp busy ew = some i) :
    eventOps busy ew = if tickBit ew then .pair .tick i else .single i := by
  simp only [eventOps, hr, hp, Bool.false_eq_true, if_false]
  cases tickBit ew <;> rfl

theorem eventOps_pollEndWord (rx : Byte) : eventOps true (0x1#4 ++ rx) = .single (.pollEnd rx) := by
  have hp : pollOp true (0x1#4 ++ rx) = some (.pollEnd rx) := by simp [pollOp]
  rw [eventOps_of_poll (rstBit_pollEndWord rx) hp, tickBit_pollEndWord, if_neg nofun]

theorem eventOps_tickPollEndWord (rx : Byte) : eventOps true (0x400#12 ||| (0x1#4 ++ rx)) = .pair .tick (.pollEnd rx) := by
  have hr : rstBit (0x400#12 ||| (0x1#4 ++ rx)) = false := by rw [rstBit_or, rstBit_pollEndWord]; rfl
  have ht : tickBit (0x400#12 ||| (0x1#4 ++ rx)) = true := by rw [tickBit_or]; rfl
  have hrx : rxByte (0x400#12 ||| (0x1#4 ++ rx)) = rx := by
    rw [rxByte_or, rxByte_pollEndWord]; exact BitVec.zero_or
  have hp : pollOp true (0x400#12 ||| (0x1#4 ++ rx)) = some (.pollEnd rx) := by
    simp [pollOp, pollEndBit_or, hrx]
  rw [eventOps_of_poll hr hp, if_pos ht]

/-- Of the pairs, R71 gives TICK with the poll operation that matches `busy`. -/
theorem EdgeSet.wellFormed_pair {busy : Bool} {g l : Instr} (h : (EdgeSet.pair g l).wellFormed busy = true) :
    g = .tick ∧ ((l = .pollBegin ∧ busy = false) ∨ ∃ rx, l = .pollEnd rx ∧ busy = true) := by
  cases g with
  | tick =>
    cases l with
    | pollBegin => exact ⟨rfl, .inl ⟨rfl, by simpa [EdgeSet.wellFormed] using h⟩⟩
    | pollEnd rx => exact ⟨rfl, .inr ⟨rx, rfl, h⟩⟩
    | _ => exact absurd h Bool.false_ne_true
  | _ => exact absurd h Bool.false_ne_true

/-- Settles O4: of the sets that R71 can give, those with a POLL_END carry a byte and are read by the strobes of their word; the
others have a fixed word. -/
theorem encodedSetDecodesToItself : Obligations.EncodedSetDecodesToItself := by
  intro busy e he
  cases e with
  | single i =>
    cases i with
    | reset | nop | tick => exact ⟨_, rfl, by cases busy <;> rfl⟩
    | pollBegin =>
      obtain rfl : busy = false := by simpa [EdgeSet.wellFormed] using he
      exact ⟨_, rfl, rfl⟩
    | pollEnd rx =>
      obtain rfl : busy = true := he
      exact ⟨_, rfl, eventOps_pollEndWord rx⟩
    | _ => exact absurd he Bool.false_ne_true
  | pair g l =>
    obtain ⟨rfl, ⟨rfl, rfl⟩ | ⟨rx, rfl, rfl⟩⟩ := EdgeSet.wellFormed_pair he
    · exact ⟨_, rfl, rfl⟩
    · exact ⟨_, rfl, eventOps_tickPollEndWord rx⟩

/-- A word of 12 bits reaches the decoder unchanged through the table's 16 bits. -/
theorem decodeTableWord_of_decodeEvent {w : EventWord} {i : Instr} (h : decodeEvent w = .ok i) :
    decodeTableWord 16 w.toNat = some i := by
  have hlt : w.toNat < 4096 := w.isLt
  rw [decodeTableWord, Nat.mod_eq_of_lt (by omega), decodeNumber, if_pos hlt, BitVec.ofNat_toNat, BitVec.setWidth_eq, h]

theorem decodeEvent_pollEndWord (rx : Byte) : decodeEvent (0x1#4 ++ rx) = .ok (.pollEnd rx) := by
  simp [decodeEvent]

/-- Settles O7: four of the five words are fixed, and a POLL_END's byte is the field `rx_byte` of its word. -/
theorem tableWordDecodesToItsEvent : Obligations.TableWordDecodesToItsEvent := by
  rintro i (rfl | rfl | rfl | rfl | ⟨rx, rfl⟩)
  · rfl
  · rfl
  · rfl
  · rfl
  · exact decodeTableWord_of_decodeEvent (decodeEvent_pollEndWord rx)

/-- Settles O2: every word and code is written out, so the decoder's stages compute. -/
theorem writtenWordsDecode : Obligations.WrittenWordsDecode :=
  ⟨rfl, rfl, rfl, rfl, rfl, rfl, rfl, rfl, rfl, rfl, rfl⟩

/-! ## The active rows (R72) -/

/-- A row is active as an event of the edge's set, as the variant of one, as the motor step of a firing edge, or as the planner's
case. -/
theorem State.mem_activeRows_iff {s : State} {ew : EventWord} {i : Instr} :
    i ∈ s.activeRows ew ↔ i ∈ (s.operations ew).ops ∨ (∃ e ∈ (s.operations ew).ops, s.variant e = i) ∨
      (s.fireOutput ew = true ∧ i = s.motorCase) ∨ i = s.planCase := by
  have hmotor : i ∈ (if s.fireOutput ew then [s.motorCase] else []) ↔ s.fireOutput ew = true ∧ i = s.motorCase := by
    split <;> simp [*]
  simp only [State.activeRows, List.mem_append, hmotor, List.mem_filter, List.mem_map, List.mem_singleton, Bool.not_eq_true',
    List.contains_eq_mem, decide_eq_false_iff_not, or_assoc]
  by_cases hi : i ∈ (s.operations ew).ops <;> simp [hi]

theorem activeRows_of_mem_operations {s : State} {ew : EventWord} {i : Instr} (h : i ∈ (s.operations ew).ops) :
    i ∈ s.activeRows ew :=
  State.mem_activeRows_iff.2 (.inl h)

theorem activeRows_of_variant {s : State} {ew : EventWord} {e i : Instr} (h : e ∈ (s.operations ew).ops)
    (hv : s.variant e = i) : i ∈ s.activeRows ew :=
  State.mem_activeRows_iff.2 (.inr (.inl ⟨e, h, hv⟩))

/-- The word of TICK makes its variant active. -/
theorem activeRows_of_variant_tick {s : State} {i : Instr} (hv : s.variant .tick = i) : i ∈ s.activeRows 0x400#12 :=
  activeRows_of_variant (tick_mem_operations s rfl rfl) hv

/-- The word of TICK makes the motor case active where it fires. -/
theorem activeRows_of_motorCase {s : State} {i : Instr} (h : s.gateLast = true) (hm : s.motorCase = i) :
    i ∈ s.activeRows 0x400#12 :=
  State.mem_activeRows_iff.2 (.inr (.inr (.inl ⟨(s.fireOutput_of_not_rst rfl).trans h, hm.symm⟩)))

theorem pollEnd_mem_pollEndWord {s : State} (hb : s.busy = true) (rx : Byte) :
    .pollEnd rx ∈ (s.operations (0x1#4 ++ rx)).ops := by
  rw [State.operations, hb, eventOps_pollEndWord]
  exact List.mem_singleton_self _

/-- The word of a POLL_END makes its variant active, with its byte. -/
theorem activeRows_of_variant_pollEnd {s : State} {rx : Byte} {i : Instr} (hb : s.busy = true)
    (hv : s.variant (.pollEnd rx) = i) : i ∈ s.activeRows (0x1#4 ++ rx) :=
  activeRows_of_variant (pollEnd_mem_pollEndWord hb rx) hv

theorem State.variant_tick_of_gateLast {s : State} (h : s.gateLast = true) : s.variant .tick = .gateFire :=
  if_pos (s.gateLast_iff.1 h)

theorem State.variant_tick_of_not_gateLast {s : State} (h : s.gateLast = false) : s.variant .tick = .gateCount :=
  if_neg (mt s.gateLast_iff.2 (Bool.eq_false_iff.1 h))

theorem State.motorCase_of_disabled {s : State} (hen : s.planEn = false) : s.motorCase = .mstepHold := by
  rw [s.motorCase_eq, if_pos hen]

theorem State.motorCase_of_budget_eq_zero {s : State} (hen : s.planEn = true) (hb : s.budget = 0) :
    s.motorCase = .mstepIdle := by
  rw [s.motorCase_eq, hen, if_neg nofun, if_pos hb]

theorem State.motorCase_of_budget_ne_zero {s : State} (hen : s.planEn = true) (hb : s.budget ≠ 0) :
    s.motorCase = .mstepStep := by
  rw [s.motorCase_eq, hen, if_neg nofun, if_neg hb]

/-- Settles O5: the event rows are members of the word's set, the gate's and the parser's rows are the variants of TICK and
POLL_END, the motor's rows are the motor case of a firing edge, and a planner's row is the case of its code. -/
theorem encodedOperationIsActiveWhereSelected : Obligations.EncodedOperationIsActiveWhereSelected := by
  intro s i hwf hsel
  cases i <;> simp only [State.selects, Bool.and_eq_true, Bool.not_eq_true', decide_eq_true_eq] at hsel
  case reset => exact activeRows_of_mem_operations (List.mem_singleton_self _)
  case nop =>
    have hnop : s.operations 0x000#12 = .single .nop :=
      eventOps_eq_single_nop_iff.2 ⟨rfl, rfl, pollOp_eq_none_iff.2 ⟨(Bool.false_ne_true ·.1), (Bool.false_ne_true ·.1)⟩⟩
    exact activeRows_of_mem_operations (by rw [hnop]; exact List.mem_singleton_self _)
  case tick => exact activeRows_of_mem_operations (tick_mem_operations s rfl rfl)
  case gateCount => exact activeRows_of_variant_tick (State.variant_tick_of_not_gateLast hsel)
  case gateFire => exact activeRows_of_variant_tick (State.variant_tick_of_gateLast hsel)
  case mstepHold =>
    obtain ⟨hlast, hen⟩ := hsel
    exact activeRows_of_motorCase hlast (State.motorCase_of_disabled hen)
  case mstepStep =>
    obtain ⟨⟨hlast, hen⟩, hb⟩ := hsel
    exact activeRows_of_motorCase hlast (State.motorCase_of_budget_ne_zero hen hb)
  case mstepIdle =>
    obtain ⟨⟨hlast, hen⟩, hb⟩ := hsel
    exact activeRows_of_motorCase hlast (State.motorCase_of_budget_eq_zero hen hb)
  case pollBegin => exact activeRows_of_mem_operations (pollBegin_mem_operations rfl rfl hsel)
  case pollEnd rx => exact activeRows_of_mem_operations (pollEnd_mem_pollEndWord hsel rx)
  case linkSync0 rx =>
    obtain ⟨hb, hk⟩ := hsel
    exact activeRows_of_variant_pollEnd hb (variant_pollEnd_of_k_eq_zero rx hk)
  case linkSync1 rx =>
    obtain ⟨hb, hk⟩ := hsel
    exact activeRows_of_variant_pollEnd hb (variant_pollEnd_of_k_eq_one rx hk)
  case linkData rx =>
    obtain ⟨⟨hb, hlo⟩, hhi⟩ := hsel
    exact activeRows_of_variant_pollEnd hb (variant_pollEnd_of_two_le_k rx hlo (Nat.lt_succ_of_le hhi))
  case linkFinal =>
    obtain ⟨hb, hk⟩ := hsel
    have hword : (0x1#4 ++ 0#8 : EventWord) = 0x100#12 := rfl
    have hrow : .linkFinal ∈ s.activeRows (0x1#4 ++ 0#8) :=
      activeRows_of_variant_pollEnd hb (variant_pollEnd_of_k_eq_frameLen 0#8 hk)
    rw [hword] at hrow
    exact hrow
  case planNone A =>
    obtain ⟨rfl, hA⟩ := hsel
    have hcase := (planVariant_eq_planNone_iff s.angle_code).2 ((inDeadBand_iff _).1 hA)
    exact ⟨hcase, hcase⟩
  case planCw A =>
    obtain ⟨rfl, hA⟩ := hsel
    have hcase := (planVariant_eq_planCw_iff s.angle_code).2 ((inCwRange_iff _).1 hA)
    exact ⟨hcase, hcase⟩
  case planCcw A =>
    obtain ⟨rfl, hA⟩ := hsel
    have hcase := (planVariant_eq_planCcw_iff s.angle_code).2 ((inCcwRange_iff _).1 hA)
    exact ⟨hcase, hcase⟩

/-! ## The bits of an active row's word -/

/-- One bit of a word as a number. -/
theorem toNat_and_two_pow (ew : EventWord) (j : Nat) : ew.toNat &&& 2 ^ j = (ew.getLsbD j).toNat * 2 ^ j := by
  rw [Nat.and_two_pow, BitVec.testBit_toNat]

/-- The bits that a row's mask picks out of a word. -/
theorem toNat_and_two_strobes (ew : EventWord) (i j : Nat) :
    ew.toNat &&& (2 ^ i ||| 2 ^ j) = (ew.getLsbD i).toNat * 2 ^ i ||| (ew.getLsbD j).toNat * 2 ^ j := by
  rw [Nat.and_or_distrib_left, toNat_and_two_pow, toNat_and_two_pow]

theorem toNat_and_tickMask {ew : EventWord} (hr : rstBit ew = false) (ht : tickBit ew = true) :
    ew.toNat &&& 0xC00 = 0x400 := by
  have h := toNat_and_two_strobes ew 11 10
  rwa [show ew.getLsbD 11 = false from hr, show ew.getLsbD 10 = true from ht] at h

theorem toNat_and_pollBeginMask {ew : EventWord} (hr : rstBit ew = false) (hp : pollBeginBit ew = true) :
    ew.toNat &&& 0xA00 = 0x200 := by
  have h := toNat_and_two_strobes ew 11 9
  rwa [show ew.getLsbD 11 = false from hr, show ew.getLsbD 9 = true from hp] at h

theorem toNat_and_pollEndMask {ew : EventWord} (hr : rstBit ew = false) (hp : pollEndBit ew = true) :
    ew.toNat &&& 0x900 = 0x100 := by
  have h := toNat_and_two_strobes ew 11 8
  rwa [show ew.getLsbD 11 = false from hr, show ew.getLsbD 8 = true from hp] at h

theorem toNat_and_rstMask {ew : EventWord} (hr : rstBit ew = true) : ew.toNat &&& 0x800 = 0x800 := by
  have h := toNat_and_two_pow ew 11
  rwa [show ew.getLsbD 11 = true from hr] at h

theorem fitsRow_iff (i : Instr) (c : Code) : fitsRow i c = true ↔ c.toNat &&& rowMask i = rowMatch i := beq_iff_eq

/-- What the opcode table says of a row at an edge: its operand is well-formed, its column "when" holds, and, NOP apart, the word
carries the bits that it fixes. -/
structure MatchesTable (s : State) (ew : EventWord) (i : Instr) : Prop where
  wellFormed : wellFormed i = true
  selected : s.selects i = true
  bits : i ≠ .nop → fitsRow i (.event ew) = true

theorem matchesTable_of_mem_operations {s : State} {ew : EventWord} {i : Instr} (h : i ∈ (s.operations ew).ops) :
    MatchesTable s ew i := by
  cases hr : rstBit ew with
  | true =>
    rw [State.operations, eventOps_of_rst hr] at h
    obtain rfl := List.mem_singleton.1 h
    exact ⟨rfl, rfl, fun _ => (fitsRow_iff _ _).2 (toNat_and_rstMask hr)⟩
  | false =>
    rw [State.operations, mem_eventOps_iff hr, pollOp_eq_some_iff] at h
    obtain ⟨rfl, ht⟩ | (⟨rfl, hp, hb⟩ | ⟨rfl, hp, hb⟩) | ⟨rfl, -⟩ := h
    · exact ⟨rfl, rfl, fun _ => (fitsRow_iff _ _).2 (toNat_and_tickMask hr ht)⟩
    · exact ⟨rfl, by rw [State.selects, hb]; rfl, fun _ => (fitsRow_iff _ _).2 (toNat_and_pollBeginMask hr hp)⟩
    · exact ⟨rfl, hb, fun _ => (fitsRow_iff _ _).2 (toNat_and_pollEndMask hr hp)⟩
    · exact ⟨rfl, rfl, fun hne => absurd rfl hne⟩

/-- TICK's variants have TICK's bits, and the registers select the one that R72 names. -/
theorem MatchesTable.variant_tick {s : State} {ew : EventWord} (h : MatchesTable s ew .tick) :
    MatchesTable s ew (s.variant .tick) := by
  have hbits := h.bits nofun
  cases hlast : s.gateLast with
  | true => rw [State.variant_tick_of_gateLast hlast]; exact ⟨rfl, hlast, fun _ => hbits⟩
  | false =>
    rw [State.variant_tick_of_not_gateLast hlast]
    exact ⟨rfl, by rw [State.selects, hlast]; rfl, fun _ => hbits⟩

theorem MatchesTable.variant_pollEnd {s : State} {ew : EventWord} {rx : Byte} (h : MatchesTable s ew (.pollEnd rx)) :
    MatchesTable s ew (s.variant (.pollEnd rx)) := by
  have hbits := h.bits nofun
  have hb : s.busy = true := h.selected
  rw [s.variant_pollEnd]
  rcases linkVariant_cases s.k rx with ⟨hk, hv⟩ | ⟨hk, hv⟩ | ⟨⟨hlo, hhi⟩, hv⟩ | ⟨hk, hv⟩ <;> rw [hv]
  · exact ⟨rfl, by simp [State.selects, hb, hk], fun _ => hbits⟩
  · exact ⟨rfl, by simp [State.selects, hb, hk], fun _ => hbits⟩
  · exact ⟨rfl, by simp [State.selects, hb, hlo, Nat.le_of_lt_succ hhi], fun _ => hbits⟩
  · exact ⟨rfl, by simp [State.selects, hb, hk], fun _ => hbits⟩

theorem matchesTable_variant {s : State} {ew : EventWord} {e : Instr} (h : MatchesTable s ew e) :
    MatchesTable s ew (s.variant e) := by
  cases e with
  | tick => exact h.variant_tick
  | pollEnd rx => exact h.variant_pollEnd
  | _ => exact h

theorem matchesTable_motorCase {s : State} {ew : EventWord} (h : s.fireOutput ew = true) :
    MatchesTable s ew s.motorCase := by
  simp only [State.fireOutput, Bool.and_eq_true, Bool.not_eq_true'] at h
  obtain ⟨⟨hr, ht⟩, hlast⟩ := h
  have hbits := toNat_and_tickMask hr ht
  cases hen : s.planEn with
  | false =>
    rw [State.motorCase_of_disabled hen]
    exact ⟨rfl, by simp [State.selects, hlast, hen], fun _ => (fitsRow_iff _ _).2 hbits⟩
  | true =>
    by_cases hb : s.budget = 0
    · rw [State.motorCase_of_budget_eq_zero hen hb]
      exact ⟨rfl, by simp [State.selects, hlast, hen, hb], fun _ => (fitsRow_iff _ _).2 hbits⟩
    · rw [State.motorCase_of_budget_ne_zero hen hb]
      exact ⟨rfl, by rw [State.selects, hlast, hen, decide_eq_true hb]; rfl, fun _ => (fitsRow_iff _ _).2 hbits⟩

/-- The rows of the planner fix no bit of the event word. -/
theorem matchesTable_planCase (s : State) (ew : EventWord) : MatchesTable s ew s.planCase := by
  rw [State.planCase]
  rcases planOf_cases s.angle_code with ⟨hA, hv, -⟩ | ⟨hA, hv, -⟩ | ⟨hA, hv, -⟩ <;> rw [hv]
  · exact ⟨hA, by simp [State.selects, hA], fun _ => (fitsRow_iff _ _).2 (Nat.and_zero _)⟩
  · exact ⟨hA, by simp [State.selects, hA], fun _ => (fitsRow_iff _ _).2 (Nat.and_zero _)⟩
  · exact ⟨hA, by simp [State.selects, hA], fun _ => (fitsRow_iff _ _).2 (Nat.and_zero _)⟩

/-- Settles O6: the four ways in which a row can be active, each with the table's columns. -/
theorem activeRowsMatchTheTable : Obligations.ActiveRowsMatchTheTable := by
  intro s ew i hi
  obtain ⟨hwf, hsel, hbits⟩ : MatchesTable s ew i := by
    obtain hop | ⟨e, he, rfl⟩ | ⟨hf, rfl⟩ | rfl := State.mem_activeRows_iff.1 hi
    · exact matchesTable_of_mem_operations hop
    · exact matchesTable_variant (matchesTable_of_mem_operations he)
    · exact matchesTable_motorCase hf
    · exact matchesTable_planCase s ew
  exact ⟨hwf, hsel, hbits⟩

end Sys2Proof.Machine
end

section
/-! SUPPORT and PROOFS. One edge, block by block (60_exceptions.md section 3): the strobe that the parser acts on and what it then
writes, what each block's registers after an edge depend on, and the edge as a tick and a poll in either order (R34, R177). -/

namespace Sys2Proof.Machine

open Sys2Proof

/-! ## What the parser writes at an edge (R111 to R116, R120) -/

theorem linkWrites_of_ignored {ew : EventWord} {s : State} (hbegin : ¬ (pollBeginBit ew = true ∧ s.busy = false))
    (hend : ¬ (pollEndBit ew = true ∧ s.busy = true)) : linkWrites ew s = s := by
  unfold linkWrites
  cases hb : s.busy with
  | false => exact if_neg fun hp => hbegin ⟨hp, hb⟩
  | true => exact if_neg fun hp => hend ⟨hp, hb⟩

theorem linkWrites_of_pollBegin {ew : EventWord} {s : State} (hp : pollBeginBit ew = true) (hb : s.busy = false) :
    linkWrites ew s = s.beginPoll := by
  rw [linkWrites, hb, if_neg nofun, if_pos hp]

/-- Up to the last position a POLL_END stores its byte where `k` points, the first two positions like the others. -/
theorem linkWrites_of_store {ew : EventWord} {s : State} (hp : pollEndBit ew = true) (hb : s.busy = true)
    (hk : s.k.val < Config.frameLen) :
    linkWrites ew s = (s.storeByte ⟨s.k.val, hk⟩ (rxByte ew)).endPoll ⟨s.k.val + 1, Nat.succ_lt_succ hk⟩ := by
  rw [linkWrites, hb, if_pos rfl, if_pos hp, dif_pos hk]
  split_ifs with h0 h1
  · simp only [h0]; rfl
  · simp only [h1]; rfl
  · rfl

theorem linkWrites_of_commit {ew : EventWord} {s : State} (hp : pollEndBit ew = true) (hb : s.busy = true)
    (hk : s.k.val = Config.frameLen) : linkWrites ew s = s.commitAngle.endPoll 0 := by
  rw [linkWrites, hb, if_pos rfl, if_pos hp, if_neg (by simp [hk]), if_neg (by simp [hk]), dif_neg hk.not_lt]

/-- What the parser's operation leaves of a state at an edge, each case with the strobe and the registers that select it. -/
inductive PollEffect (ew : EventWord) (s : State) : State → Prop
  | ignored (hbegin : ¬ (pollBeginBit ew = true ∧ s.busy = false)) (hend : ¬ (pollEndBit ew = true ∧ s.busy = true)) :
      PollEffect ew s s
  | begun (hp : pollBeginBit ew = true) (hb : s.busy = false) : PollEffect ew s s.beginPoll
  | stored (hp : pollEndBit ew = true) (hb : s.busy = true) (hk : s.k.val < Config.frameLen) :
      PollEffect ew s ((s.storeByte ⟨s.k.val, hk⟩ (rxByte ew)).endPoll ⟨s.k.val + 1, Nat.succ_lt_succ hk⟩)
  | committed (hp : pollEndBit ew = true) (hb : s.busy = true) (hk : s.k.val = Config.frameLen) :
      PollEffect ew s (s.commitAngle.endPoll 0)

theorem linkWrites_effect (ew : EventWord) (s : State) : PollEffect ew s (linkWrites ew s) := by
  by_cases hbegin : pollBeginBit ew = true ∧ s.busy = false
  · obtain ⟨hp, hb⟩ := hbegin
    exact linkWrites_of_pollBegin hp hb ▸ .begun hp hb
  · by_cases hend : pollEndBit ew = true ∧ s.busy = true
    · obtain ⟨hp, hb⟩ := hend
      rcases Nat.lt_or_eq_of_le (Nat.le_of_lt_succ s.k.isLt) with hk | hk
      · exact linkWrites_of_store hp hb hk ▸ .stored hp hb hk
      · exact linkWrites_of_commit hp hb hk ▸ .committed hp hb hk
    · exact (linkWrites_of_ignored hbegin hend).symm ▸ .ignored hbegin hend

/-! ## What the parser's registers depend on -/

theorem sameLink.symm {s t : State} (h : sameLink s t) : sameLink t s := by
  obtain ⟨hk, hbusy, hsel, hframe, hangle⟩ := h
  exact ⟨hk.symm, hbusy.symm, hsel.symm, hframe.symm, hangle.symm⟩

theorem sameLink.joinBlocks_eq {s t : State} (h : sameLink s t) : joinBlocks t s = t := by
  obtain ⟨hk, hbusy, hsel, hframe, hangle⟩ := h
  rw [joinBlocks, ← hk, ← hbusy, ← hsel, ← hframe, ← hangle]

/-- The parser reads no register of another block (R34). -/
theorem linkWrites_joinBlocks (ew : EventWord) (g s : State) :
    linkWrites ew (joinBlocks g s) = joinBlocks g (linkWrites ew s) := by
  unfold linkWrites
  simp only [apply_ite (joinBlocks g), apply_dite (joinBlocks g)]
  rfl

theorem sameLink.linkWrites {s t : State} (h : sameLink s t) (ew : EventWord) :
    sameLink (linkWrites ew s) (linkWrites ew t) := by
  rw [← h.joinBlocks_eq, linkWrites_joinBlocks]
  exact ⟨rfl, rfl, rfl, rfl, rfl⟩

/-- After an edge without `rst` the parser's registers are what its operation leaves of the state before the edge. -/
theorem edgeNext_sameLink_linkWrites {ew : EventWord} (s : State) (hr : rstBit ew = false) :
    sameLink (linkWrites ew s) (edgeNext ew s) :=
  have hfire : sameLink s (s.driveFire false) := sameLink_refl s
  (hfire.linkWrites ew).trans (edgeNext_sameLink s hr)

theorem edgeNext_sameLink_of_not_poll {ew : EventWord} (s : State) (hr : rstBit ew = false) (hbegin : pollBeginBit ew = false)
    (hend : pollEndBit ew = false) : sameLink s (edgeNext ew s) := by
  have h := edgeNext_sameLink_linkWrites s hr
  rwa [linkWrites_of_not_poll s hbegin hend] at h

/-- Edges whose words the parser reads alike leave its registers alike. -/
theorem sameLink.edgeNext {ew ew' : EventWord} {s t : State} (h : sameLink s t) (hr : rstBit ew = false)
    (hr' : rstBit ew' = false) (hlink : Machine.linkWrites ew t = Machine.linkWrites ew' t) :
    sameLink (edgeNext ew s) (edgeNext ew' t) :=
  (edgeNext_sameLink_linkWrites s hr).symm.trans
    ((h.linkWrites ew).trans (hlink ▸ edgeNext_sameLink_linkWrites t hr'))

/-! ## What the gate's and the motor's registers depend on -/

theorem sameMotor.symm {s t : State} (h : sameMotor s t) : sameMotor t s := by
  obtain ⟨hstep, hcoil, htotal⟩ := h
  exact ⟨hstep.symm, hcoil.symm, htotal.symm⟩

theorem sameMotor.trans {s t u : State} (hst : sameMotor s t) (htu : sameMotor t u) : sameMotor s u := by
  obtain ⟨hstep, hcoil, htotal⟩ := hst
  obtain ⟨hstep', hcoil', htotal'⟩ := htu
  exact ⟨hstep'.trans hstep, hcoil'.trans hcoil, htotal'.trans htotal⟩

/-- An edge without `rst` counts its tick modulo `MOTOR_DIV`. -/
theorem edgeNext_gate_cnt_val {ew : EventWord} (s : State) (hr : rstBit ew = false) :
    (edgeNext ew s).gate_cnt.val = (s.gate_cnt.val + (tickBit ew).toNat) % Config.motorDiv := by
  obtain ⟨hgate, -, -⟩ := edgeNext_of_not_rst s hr
  rw [hgate]
  cases ht : tickBit ew with
  | false => rw [gateWrites_of_not_tick ht]; exact (Nat.mod_eq_of_lt s.gate_cnt.isLt).symm
  | true =>
    obtain ⟨hcount, -⟩ := gateWrites_of_tick (s := s.driveFire false) ht
    rw [hcount, State.advanceGate_gate_cnt_val]; rfl

theorem edgeNext_gate_cnt_congr {ew ew' : EventWord} {s t : State} (hr : rstBit ew = false) (hr' : rstBit ew' = false)
    (ht : tickBit ew' = tickBit ew) (hg : t.gate_cnt = s.gate_cnt) :
    (edgeNext ew' t).gate_cnt = (edgeNext ew s).gate_cnt :=
  Fin.ext (by rw [edgeNext_gate_cnt_val t hr', edgeNext_gate_cnt_val s hr, ht, hg])

theorem fireOutput_congr {ew ew' : EventWord} {s t : State} (hr : rstBit ew = false) (hr' : rstBit ew' = false)
    (ht : tickBit ew' = tickBit ew) (hg : t.gate_cnt = s.gate_cnt) : t.fireOutput ew' = s.fireOutput ew := by
  rw [t.fireOutput_of_not_rst hr', s.fireOutput_of_not_rst hr, ht, State.gateLast, hg]; rfl

/-- The motor's registers after an edge depend on themselves, on the tick, the gate, and at a firing edge on the plan. -/
theorem edgeNext_sameMotor_congr {ew ew' : EventWord} {s t : State} (hr : rstBit ew = false) (hr' : rstBit ew' = false)
    (ht : tickBit ew' = tickBit ew) (hg : t.gate_cnt = s.gate_cnt) (hm : sameMotor s t)
    (hplan : s.fireOutput ew = true → t.plan = s.plan) : sameMotor (edgeNext ew s) (edgeNext ew' t) := by
  have hfire := fireOutput_congr hr hr' ht hg
  cases hf : s.fireOutput ew with
  | false =>
    exact (edgeNext_sameMotor_of_not_fire hr hf).symm.trans
      (hm.trans (edgeNext_sameMotor_of_not_fire hr' (hfire.trans hf)))
  | true =>
    have hstep := edgeNext_sameMotor_of_fire hr' (hfire.trans hf)
    rw [hplan hf] at hstep
    exact (edgeNext_sameMotor_of_fire hr hf).symm.trans ((hm.motorStep s.plan).trans hstep)

/-- An edge without a tick leaves the gate and the motor alone (R104). -/
theorem edgeNext_of_not_tick {ew : EventWord} (s : State) (hr : rstBit ew = false) (ht : tickBit ew = false) :
    (edgeNext ew s).gate_cnt = s.gate_cnt ∧ sameMotor s (edgeNext ew s) := by
  obtain ⟨hgate, hmotor, -⟩ := edgeNext_of_not_rst s hr
  rw [gateWrites_of_not_tick ht] at hgate hmotor
  exact ⟨hgate, hmotor⟩

/-! ## `angle_code` over one edge (R116) -/

theorem PollEffect.angle_code {ew : EventWord} {s t : State} (h : PollEffect ew s t) :
    t.angle_code = s.angle_code ∨ (pollEndBit ew = true ∧ s.busy = true ∧ s.k.val = 10 ∧ s.valid = true ∧
      t.angle_code = rawCode (rawField s.frame)) := by
  cases h with
  | ignored | begun | stored => exact .inl rfl
  | committed hp hb hk =>
    cases hv : s.valid with
    | false => exact .inl (by simp [hv])
    | true => exact .inr ⟨hp, hb, hk, rfl, by simp [hv]⟩

/-- An edge without `rst` leaves `angle_code` or commits a valid frame. -/
theorem edgeNext_angle_code {ew : EventWord} (s : State) (hr : rstBit ew = false) :
    (edgeNext ew s).angle_code = s.angle_code ∨ (pollEndBit ew = true ∧ s.busy = true ∧ s.k.val = 10 ∧ s.valid = true ∧
      (edgeNext ew s).angle_code = rawCode (rawField s.frame)) := by
  obtain ⟨-, -, -, -, hangle⟩ := edgeNext_sameLink_linkWrites s hr
  rw [hangle]
  exact (linkWrites_effect ew s).angle_code

/-- Settles O43: the edge that changes `angle_code` is the commit of a valid frame. -/
theorem angleChangesOnlyAtAValidCommit : Obligations.AngleChangesOnlyAtAValidCommit := by
  refine fun ew s hr => ⟨_, edge_eq ew s, fun hne => ?_⟩
  obtain ⟨hp, hb, hk, hv, -⟩ := (edgeNext_angle_code s hr).resolve_left hne
  exact ⟨hp, hb, hk, s.valid_eq ▸ hv⟩

/-! ## The tick alone and the poll alone -/

/-- The word with every strobe but `tick` cleared. -/
abbrev tickOnly (ew : EventWord) : EventWord := ew &&& 0x4FF#12

/-- The word with its tick cleared. -/
abbrev pollOnly (ew : EventWord) : EventWord := ew &&& 0xBFF#12

theorem rstBit_tickOnly {ew : EventWord} (hr : rstBit ew = false) : rstBit (tickOnly ew) = false := by
  rw [rstBit_and, hr, Bool.false_and]

theorem rstBit_pollOnly (ew : EventWord) : rstBit (pollOnly ew) = rstBit ew := by
  rw [rstBit_and]; exact Bool.and_true _

theorem tickBit_tickOnly (ew : EventWord) : tickBit (tickOnly ew) = tickBit ew := by
  rw [tickBit_and]; exact Bool.and_true _

theorem tickBit_pollOnly (ew : EventWord) : tickBit (pollOnly ew) = false := by
  rw [tickBit_and]; exact Bool.and_false _

theorem linkWrites_pollOnly (ew : EventWord) (s : State) : linkWrites (pollOnly ew) s = linkWrites ew s :=
  linkWrites_congr (fun _ => by rw [pollBeginBit_and]; exact Bool.and_true _)
    (fun _ => by rw [pollEndBit_and]; exact Bool.and_true _)
    (fun _ _ _ => by rw [rxByte_and]; exact BitVec.and_allOnes)

theorem edgeNext_tickOnly_sameLink {ew : EventWord} (s : State) (hr : rstBit ew = false) :
    sameLink s (edgeNext (tickOnly ew) s) :=
  edgeNext_sameLink_of_not_poll s (rstBit_tickOnly hr) (by rw [pollBeginBit_and]; exact Bool.and_false _)
    (by rw [pollEndBit_and]; exact Bool.and_false _)

theorem toRegs_eq_of_blocks {s t : State} (hgate : t.gate_cnt = s.gate_cnt) (hmotor : sameMotor s t) (hlink : sameLink s t) :
    t.toRegs = s.toRegs := by
  obtain ⟨hstep, hcoil, htotal⟩ := hmotor
  obtain ⟨hk, hbusy, hsel, hframe, hangle⟩ := hlink
  obtain ⟨⟨_, _, _, _, _, _, _, _, _⟩, _, _⟩ := s
  obtain ⟨⟨_, _, _, _, _, _, _, _, _⟩, _, _⟩ := t
  simp only at hgate hstep hcoil htotal hk hbusy hsel hframe hangle
  simp only [hgate, hstep, hcoil, htotal, hk, hbusy, hsel, hframe, hangle]

/-- Settles O54: the gate's and the motor's registers depend on the tick alone, the parser's on the poll strobes alone, and of
these the one that does not match `busy` is masked away. -/
theorem sameEdgeEventsAreIndependent : Obligations.SameEdgeEventsAreIndependent := by
  refine ⟨fun ew s hr => (edge_of_rst s hr).trans (exec_reset s).symm, fun ew s hr => ?_, fun ew s => ?strobe⟩
  case strobe =>
    cases hb : s.busy with
    | false => exact edge_and_mask rfl rfl (fun _ => rfl) (by simp [hb]) (fun _ _ _ => rfl)
    | true => exact edge_and_mask rfl rfl (by simp [hb]) (fun _ => rfl) (fun _ _ _ => rfl)
  have hrtick : rstBit (tickOnly ew) = false := rstBit_tickOnly hr
  have hrpoll : rstBit (pollOnly ew) = false := (rstBit_pollOnly ew).trans hr
  exact ⟨_, _, _, edge_eq ew s, edge_eq (tickOnly ew) s, edge_eq (pollOnly ew) s,
    edgeNext_gate_cnt_congr hrtick hr (tickBit_tickOnly ew).symm rfl,
    edgeNext_sameMotor_congr hrtick hr (tickBit_tickOnly ew).symm rfl (sameMotor_refl s) (fun _ => rfl),
    (sameLink_refl s).edgeNext hrpoll hr (linkWrites_pollOnly ew s)⟩

theorem edgeNext_toRegs_tick_then_poll {ew : EventWord} (s : State) (hr : rstBit ew = false) :
    (edgeNext ew s).toRegs = (edgeNext (pollOnly ew) (edgeNext (tickOnly ew) s)).toRegs := by
  have hrtick : rstBit (tickOnly ew) = false := rstBit_tickOnly hr
  have hrpoll : rstBit (pollOnly ew) = false := (rstBit_pollOnly ew).trans hr
  have ht : tickBit ew = tickBit (tickOnly ew) := (tickBit_tickOnly ew).symm
  obtain ⟨hgate, hmotor⟩ := edgeNext_of_not_tick (edgeNext (tickOnly ew) s) hrpoll (tickBit_pollOnly ew)
  have hlink : sameLink (edgeNext (tickOnly ew) s) s := (edgeNext_tickOnly_sameLink s hr).symm
  exact toRegs_eq_of_blocks ((edgeNext_gate_cnt_congr hrtick hr ht rfl).trans hgate.symm)
    (hmotor.symm.trans (edgeNext_sameMotor_congr hrtick hr ht rfl (sameMotor_refl s) (fun _ => rfl)))
    (hlink.edgeNext hrpoll hr (linkWrites_pollOnly ew s))

/-- In the other order the tick sees the `angle_code` after the poll, which matters only to a motor step. -/
theorem edgeNext_toRegs_poll_then_tick {ew : EventWord} (s : State) (hr : rstBit ew = false)
    (hangle : s.fireOutput ew = true → (edgeNext (pollOnly ew) s).angle_code = s.angle_code) :
    (edgeNext ew s).toRegs = (edgeNext (tickOnly ew) (edgeNext (pollOnly ew) s)).toRegs := by
  have hrtick : rstBit (tickOnly ew) = false := rstBit_tickOnly hr
  have hrpoll : rstBit (pollOnly ew) = false := (rstBit_pollOnly ew).trans hr
  have ht : tickBit (tickOnly ew) = tickBit ew := tickBit_tickOnly ew
  obtain ⟨hgate, hmotor⟩ := edgeNext_of_not_tick s hrpoll (tickBit_pollOnly ew)
  have hlink := edgeNext_tickOnly_sameLink (edgeNext (pollOnly ew) s) hr
  exact toRegs_eq_of_blocks (edgeNext_gate_cnt_congr hr hrtick ht hgate).symm
    (edgeNext_sameMotor_congr hr hrtick ht hgate hmotor (fun hf => congrArg planOf (hangle hf))).symm
    (hlink.symm.trans ((sameLink_refl s).edgeNext hrpoll hr (linkWrites_pollOnly ew s)))

/-- Settles O55: a tick leaves nothing that the poll reads, and a poll leaves nothing that the tick reads but, at a commit, the
plan, which a tick reads only where it fires. -/
theorem edgeEqualsTickThenPoll : Obligations.EdgeEqualsTickThenPoll := by
  refine fun ew s hr => ⟨⟨_, _, _, edge_eq ew s, edge_eq _ s, edge_eq _ _, edgeNext_toRegs_tick_then_poll s hr⟩,
    fun hno => ⟨_, _, _, edge_eq ew s, edge_eq _ s, edge_eq _ _, edgeNext_toRegs_poll_then_tick s hr fun hf => ?_⟩⟩
  have hrpoll : rstBit (pollOnly ew) = false := (rstBit_pollOnly ew).trans hr
  refine (edgeNext_angle_code s hrpoll).resolve_right fun ⟨hp, hb, hk, _, _⟩ => hno ⟨hf, ?_, hb, hk⟩
  rw [pollEndBit_and, Bool.and_eq_true] at hp
  obtain ⟨he, -⟩ := hp
  exact he

end Sys2Proof.Machine
end

section
/-! SUPPORT and PROOFS. The invariant (10_state.md section 5): what reset establishes and every step keeps, and what it gives to an
environment that keeps the order of poll events (70_reset_and_hazards.md section 3). -/

namespace Sys2Proof.Machine

open Sys2Proof

/-! ## The select line (R35 (c)) -/

/-- The level of the select line that R35 (c) gives for a frame position and `busy`: low is selected. -/
def selectLevel (k : Nat) (busy : Bool) : Bool := if k = 0 then !busy else if k = Config.frameLen then busy else false

theorem selectLevel_zero (busy : Bool) : selectLevel 0 busy = !busy := rfl

theorem selectLevel_frameLen (busy : Bool) : selectLevel Config.frameLen busy = busy := rfl

theorem selectLevel_between {k : Nat} (h0 : k ≠ 0) (h10 : k ≠ Config.frameLen) (busy : Bool) :
    selectLevel k busy = false := by
  rw [selectLevel, if_neg h0, if_neg h10]

theorem not_selectedWhen (r : Regs) : (!selectedWhen r) = selectLevel r.k.val r.busy := by
  have hk : r.k.val ≤ Config.frameLen := Nat.le_of_lt_succ r.k.isLt
  by_cases h0 : r.k.val = 0
  · simp [selectedWhen, h0, selectLevel_zero]
  · by_cases h10 : r.k.val = Config.frameLen
    · simp [selectedWhen, h10, selectLevel_frameLen]
    · have hlo : 1 ≤ r.k.val := Nat.one_le_iff_ne_zero.2 h0
      have hhi : r.k.val ≤ 9 := Nat.le_of_lt_succ (lt_of_le_of_ne hk h10)
      simp [selectedWhen, hlo, hhi, selectLevel_between h0 h10]

/-- The select line is where `k` and `busy` say. -/
def SelectLine (s : State) : Prop := s.sel_n = selectLevel s.k.val s.busy

theorem Inv.selectLine {s : State} (h : Inv s) : SelectLine s := h.select_line.trans (not_selectedWhen s.toRegs)

theorem sameLink.selectLine {s t : State} (h : sameLink s t) (hs : SelectLine s) : SelectLine t := by
  obtain ⟨hk, hbusy, hsel, -, -⟩ := h
  rw [SelectLine, hk, hbusy, hsel, hs]

/-- While a poll that exchanges a byte is open the sensor is selected (R205). -/
theorem SelectLine.sel_n_of_exchange {s : State} (h : SelectLine s) (hb : s.busy = true) (hk : s.k.val < Config.frameLen) :
    s.sel_n = false := by
  rw [h, hb]
  by_cases h0 : s.k.val = 0
  · rw [h0]; rfl
  · exact selectLevel_between h0 hk.ne true

/-- Beginning a poll drives the line at the two ends of the frame; ending one moves `k` to where the line already is. -/
theorem PollEffect.selectLine {ew : EventWord} {s t : State} (h : PollEffect ew s t) (hs : SelectLine s) : SelectLine t := by
  cases h with
  | ignored => exact hs
  | begun =>
    rw [SelectLine, State.beginPoll_sel_n, State.beginPoll_k, State.beginPoll_busy]
    by_cases h0 : s.k.val = 0
    · rw [if_pos h0, h0]; rfl
    · by_cases h10 : s.k.val = Config.frameLen
      · rw [if_neg h0, if_pos h10, h10]; rfl
      · rw [if_neg h0, if_neg h10, selectLevel_between h0 h10, hs, selectLevel_between h0 h10]
  | stored _ hb hk =>
    rw [SelectLine, State.endPoll_sel_n, State.storeByte_sel_n, hs.sel_n_of_exchange hb hk, State.endPoll_k, State.endPoll_busy,
      selectLevel, if_neg (Nat.succ_ne_zero s.k.val), ite_self]
  | committed _ hb hk => rw [SelectLine, State.endPoll_sel_n, State.commitAngle_sel_n, hs, hb, hk]; rfl

/-! ## The frame buffer's form and the planner's ports (the model's own data) -/

theorem PollEffect.frame_wf {ew : EventWord} {s t : State} (h : PollEffect ew s t) (hs : Memory.wf s.frame = true) :
    Memory.wf t.frame = true := by
  cases h with
  | ignored | begun | committed => exact hs
  | stored => exact Memory.write_wf _ _ _ hs

theorem edgeNext_ports_plan (ew : EventWord) (s : State) : (edgeNext ew s).ports.plan = (edgeNext ew s).plan := by
  cases hr : rstBit ew with
  | true => rw [edgeNext_of_rst s hr]; exact (State.resetWith_plan s.totalW).symm
  | false => rw [edgeNext, hr]; rfl

/-- R35 (e) holds by the type of `coil`. -/
theorem coil_bits_mem_patterns (c : Coil) : c.bits = 0x0#4 ∨ c.bits ∈ coilPatterns := by
  cases c <;> decide

/-! ## The invariant -/

theorem inv_resetWith (totalW : Nat) : Inv (State.resetWith totalW) where
  select_line := rfl
  coil_pattern := .inl rfl
  frame_canonical := rfl
  ports_current := (State.resetWith_plan totalW).symm

/-- Settles O51: the state after reset for every `TOTAL_W`, R7's default among them. -/
theorem invariantHoldsAtReset : Obligations.InvariantHoldsAtReset := ⟨inv_resetWith Config.totalWDefault, inv_resetWith⟩

theorem Inv.edgeNext {s : State} (h : Inv s) (ew : EventWord) : Inv (edgeNext ew s) := by
  cases hr : rstBit ew with
  | true =>
    rw [edgeNext_of_rst s hr]
    obtain ⟨hsel, hcoil, hframe, hports⟩ := inv_resetWith s.totalW
    exact ⟨hsel, hcoil, hframe, hports⟩
  | false =>
    have hlink := edgeNext_sameLink_linkWrites s hr
    have heffect := linkWrites_effect ew s
    have hframe : (Machine.edgeNext ew s).frame = (linkWrites ew s).frame := by
      obtain ⟨-, -, -, hframe, -⟩ := hlink
      exact hframe
    exact ⟨(hlink.selectLine (heffect.selectLine h.selectLine)).trans (not_selectedWhen _).symm, coil_bits_mem_patterns _,
      hframe ▸ heffect.frame_wf h.frame_canonical, edgeNext_ports_plan ew s⟩

/-- Settles O52: a step is an edge on the state with the word taken, which the invariant does not see. -/
theorem everyStepKeepsTheInvariant : Obligations.EveryStepKeepsTheInvariant := by
  intro s t hs hstep
  rw [step_eq] at hstep
  cases hstep
  have htaken : Inv s.takeWord := ⟨hs.select_line, hs.coil_pattern, hs.frame_canonical, hs.ports_current⟩
  exact htaken.edgeNext s.pendingWord

/-! ## The order of poll events (R201, R205) -/

theorem pollOrderKept_iff (s : State) (ew : EventWord) :
    pollOrderKept s ew = true ↔ (pollBeginBit ew = true → s.busy = false) ∧ (pollEndBit ew = true → s.busy = true) ∧
      ¬ (pollBeginBit ew = true ∧ pollEndBit ew = true) := by
  unfold pollOrderKept
  cases pollBeginBit ew <;> cases pollEndBit ew <;> cases s.busy <;> decide

/-- Settles O44: in the order of R201 each strobe matches `busy`, and the exchange is the poll of a byte. -/
theorem orderedPollsAreNeverIgnored : Obligations.OrderedPollsAreNeverIgnored := by
  refine ⟨fun ew s hr hord => ?_, fun ew s hs => ?_⟩
  · obtain ⟨hbegin, hend, -⟩ := (pollOrderKept_iff s ew).1 hord
    exact ⟨fun hp => pollBegin_mem_operations hr hp (hbegin hp), fun hp => pollEnd_mem_operations hr hp (hend hp)⟩
  · unfold exchangeSelected
    cases hx : pollEndBit ew && s.busy && xferFlag s.k with
    | false => rfl
    | true =>
      simp only [Bool.and_eq_true, xferFlag, decide_eq_true_eq] at hx
      obtain ⟨⟨-, hb⟩, hk⟩ := hx
      rw [hs.selectLine.sel_n_of_exchange hb hk]; rfl

/-! ## An operation that the state does not select (the model's choice, R72) -/

/-- Settles O10: outside the planner every operation tests the condition that selects it, or holds anyway. -/
theorem unselectedOperationHolds : Obligations.UnselectedOperationHolds := by
  intro s i hsel hnone hcw hccw
  cases i with
  | reset | nop | tick => cases hsel
  | mstepHold | mstepIdle => rfl
  | planNone A => exact absurd rfl (hnone A)
  | planCw A => exact absurd rfl (hcw A)
  | planCcw A => exact absurd rfl (hccw A)
  | gateCount => exact if_pos (by simpa [State.selects] using hsel)
  | gateFire => exact if_neg (Bool.eq_false_iff.1 hsel)
  | mstepStep => exact if_neg (Bool.eq_false_iff.1 hsel)
  | pollBegin => exact if_pos (by simpa [State.selects] using hsel)
  | pollEnd rx => exact exec_pollEnd_of_not_busy rx hsel
  | linkSync0 rx => exact if_neg (Bool.eq_false_iff.1 hsel)
  | linkSync1 rx => exact if_neg (Bool.eq_false_iff.1 hsel)
  | linkFinal => exact if_neg (Bool.eq_false_iff.1 hsel)
  | linkData rx =>
    refine dif_neg fun ⟨hb, hlo, hhi⟩ => ?_
    have hle : s.k.val ≤ 9 := Nat.le_of_lt_succ hhi
    simp [State.selects, hb, hlo, hle] at hsel

end Sys2Proof.Machine
end

section
/-! SUPPORT and PROOFS. Steps and runs (00_scope.md section 4, 44_system_ops.md R166): the step as its decoded operations, a run as
the fold of its edges, and what a run counts and what it leaves alone. -/

namespace Sys2Proof.Machine

open Sys2Proof

/-! ## A step and its operations (R8, R71, R72) -/

theorem andThen_assoc (o : Host.Outcome State Fault Refusal) (f g : State → Host.Outcome State Fault Refusal) :
    andThen (andThen o f) g = andThen o (fun a => andThen (f a) g) := by
  cases o <;> rfl

/-- Placing a word and taking it back leaves the state as it was. -/
theorem State.withFetchWord_takeWord (s : State) (nbits w : Nat) : (s.withFetchWord nbits w).takeWord = s := rfl

theorem State.withFetchWord_pendingWord (s : State) (nbits w : Nat) :
    (s.withFetchWord nbits w).pendingWord = BitVec.ofNat 12 (w % 2 ^ nbits) := rfl

/-- Settles O1: an edge runs the set of its word on the state with `fire` lowered, and then the planner's case. -/
theorem stepRunsTheDecodedOperations : Obligations.StepRunsTheDecodedOperations := by
  refine ⟨fun s i hop => ?single, fun s g l hop => ?pair, fun s w hw => ?word⟩
  case single =>
    change andThen (runSet (s.takeWord.driveFire false) (s.operations s.pendingWord)) showPlan = _
    rw [hop]; rfl
  case pair =>
    change andThen (runSet (s.takeWord.driveFire false) (s.operations s.pendingWord)) showPlan = _
    rw [hop, runSet, andThen_assoc]
    simp only [andThen_assoc]; rfl
  case word =>
    have hword : w % 2 ^ 16 = w := Nat.mod_eq_of_lt (by omega)
    rw [step, s.withFetchWord_takeWord, s.withFetchWord_pendingWord, hword]

/-! ## A run as the fold of its edges (R166) -/

/-- The state after a run. -/
def runNext (ws : List EventWord) (s : State) : State := ws.foldl (fun s ew => edgeNext ew s) s

theorem runNext_cons (ew : EventWord) (ws : List EventWord) (s : State) : runNext (ew :: ws) s = runNext ws (edgeNext ew s) := rfl

theorem runNext_append (ws ws' : List EventWord) (s : State) : runNext (ws ++ ws') s = runNext ws' (runNext ws s) :=
  List.foldl_append

theorem runEdges_eq (ws : List EventWord) (s : State) : runEdges ws s = .next (runNext ws s) := by
  induction ws generalizing s with
  | nil => rfl
  | cons ew ws ih => rw [runEdges, edge_eq, andThen_next, ih, runNext_cons]

/-! ## The pending words are the environment's alone (notes/assumptions/1.md) -/

/-- The state with other words pending. -/
def State.withStimulus (l : List EventWord) (s : State) : State := { s with stimulus := l }

theorem State.motorStep_withStimulus (l : List EventWord) (p : Plan) (s : State) :
    (s.withStimulus l).motorStep p = (s.motorStep p).withStimulus l := by
  unfold State.motorStep
  split_ifs <;> rfl

theorem gateWrites_withStimulus (ew : EventWord) (l : List EventWord) (s : State) :
    gateWrites ew (s.withStimulus l) = (gateWrites ew s).withStimulus l := by
  have hlast : (s.withStimulus l).gateLast = s.gateLast := rfl
  have hplan : (s.withStimulus l).plan = s.plan := rfl
  have hadvance : (s.withStimulus l).advanceGate = s.advanceGate.withStimulus l := rfl
  rw [gateWrites, gateWrites, hlast, hplan, hadvance, State.motorStep_withStimulus]
  split_ifs <;> rfl

theorem linkWrites_withStimulus (ew : EventWord) (l : List EventWord) (s : State) :
    linkWrites ew (s.withStimulus l) = (linkWrites ew s).withStimulus l := by
  unfold linkWrites
  simp only [apply_ite (State.withStimulus l), apply_dite (State.withStimulus l)]
  rfl

theorem edgeNext_withStimulus (ew : EventWord) (l : List EventWord) (s : State) :
    edgeNext ew (s.withStimulus l) = (edgeNext ew s).withStimulus l := by
  have hfire : (s.withStimulus l).driveFire false = (s.driveFire false).withStimulus l := rfl
  rw [edgeNext, edgeNext, hfire, gateWrites_withStimulus, linkWrites_withStimulus]
  split <;> rfl

theorem runNext_withStimulus (ws l : List EventWord) (s : State) :
    runNext ws (s.withStimulus l) = (runNext ws s).withStimulus l := by
  induction ws generalizing s with
  | nil => rfl
  | cons ew ws ih => rw [runNext_cons, edgeNext_withStimulus, ih, runNext_cons]

theorem State.withStimulus_self (s : State) : s.withStimulus s.stimulus = s := rfl

theorem runNext_stimulus (ws : List EventWord) (s : State) : (runNext ws s).stimulus = s.stimulus := by
  have h := congrArg State.stimulus (runNext_withStimulus ws s.stimulus s)
  rwa [s.withStimulus_self] at h

/-- A step takes the first pending word. -/
theorem step_withStimulus_cons (ew : EventWord) (l : List EventWord) (s : State) :
    step (s.withStimulus (ew :: l)) = .next ((edgeNext ew s).withStimulus l) :=
  (edge_eq ew (s.withStimulus l)).trans (congrArg Host.Outcome.next (edgeNext_withStimulus ew l s))

theorem run_succ_of_step (M : Host.Core) (n : Nat) {s t : M.State} (h : M.step s = .next t) : M.run (n + 1) s = M.run n t := by
  rw [Host.Core.run, h]

theorem core_run_withStimulus (ws rest : List EventWord) (s : State) :
    (Host.Core.run core ws.length (s.withStimulus (ws ++ rest)) : Host.Outcome State Fault Refusal)
      = .next ((runNext ws s).withStimulus rest) := by
  induction ws generalizing s with
  | nil => rfl
  | cons ew ws ih =>
    have hstep : core.step (s.withStimulus (ew :: ws ++ rest)) = .next ((edgeNext ew s).withStimulus (ws ++ rest)) :=
      step_withStimulus_cons ew (ws ++ rest) s
    exact (run_succ_of_step core ws.length hstep).trans (ih (edgeNext ew s))

theorem runOutputs_length (ws : List EventWord) (s : State) : (runOutputs ws s).length = ws.length := by
  induction ws generalizing s with
  | nil => rfl
  | cons ew ws ih => simp only [runOutputs, edge_eq, List.length_cons, ih]

/-- Settles O56: a step takes the first pending word, and no edge reads the others. -/
theorem stepsAreTheRunOfTheStimulus : Obligations.StepsAreTheRunOfTheStimulus := fun ws rest s =>
  ⟨(runNext ws s).withStimulus rest, (runEdges_eq ws (s.withStimulus rest)).trans (congrArg _ (runNext_withStimulus ws rest s)),
    rfl, runOutputs_length ws s, core_run_withStimulus ws rest s⟩

/-! ## What a run counts (R105, R155) -/

theorem tickCount_cons (ew : EventWord) (ws : List EventWord) : tickCount (ew :: ws) = (tickBit ew).toNat + tickCount ws := by
  cases ht : tickBit ew <;> simp [tickCount, ht, Nat.add_comm]

theorem runNext_gate_cnt_val {ws : List EventWord} (hws : ∀ ew ∈ ws, rstBit ew = false) (s : State) :
    (runNext ws s).gate_cnt.val = (s.gate_cnt.val + tickCount ws) % Config.motorDiv := by
  induction ws generalizing s with
  | nil => exact (Nat.mod_eq_of_lt s.gate_cnt.isLt).symm
  | cons ew ws ih =>
    obtain ⟨hr, hws⟩ := List.forall_mem_cons.1 hws
    rw [runNext_cons, ih hws, edgeNext_gate_cnt_val s hr, Nat.mod_add_mod, tickCount_cons, Nat.add_assoc]

/-- Settles O20: each edge counts its own tick, and nothing else. -/
theorem gateCounterCountsRawTicks : Obligations.GateCounterCountsRawTicks := fun ws s hws =>
  ⟨runNext ws s, runEdges_eq ws s, runNext_gate_cnt_val hws s⟩

/-- An edge executes a motor step where it fires under a plan that steps (R155). -/
def executesStep (ew : EventWord) (s : State) : Bool := s.fireOutput ew && s.wouldStep

theorem stepsExecuted_cons (ew : EventWord) (ws : List EventWord) (s : State) :
    stepsExecuted (ew :: ws) s = (executesStep ew s).toNat + stepsExecuted ws (edgeNext ew s) := by
  have hone : (executesStep ew s).toNat = if s.fireOutput ew && s.wouldStep then 1 else 0 := by
    rw [executesStep]; cases s.fireOutput ew && s.wouldStep <;> rfl
  rw [stepsExecuted, edge_eq, hone]

theorem State.motorStep_plan_of_not_wouldStep {s : State} (h : s.wouldStep = false) : s.motorStep s.plan = s := by
  obtain ⟨-, hm⟩ | ⟨-, -, hm⟩ | ⟨hen, hb, -⟩ := s.motorStep_cases s.plan
  · exact hm
  · exact hm
  · exact absurd (s.wouldStep_iff.2 ⟨hen, hb⟩) (Bool.eq_false_iff.1 h)

/-- An edge without `rst` takes one coil step or leaves the motor's registers. -/
theorem edgeNext_sameMotor_of_executesStep {ew : EventWord} {s : State} (hr : rstBit ew = false)
    (h : executesStep ew s = true) : sameMotor (s.stepCoil s.plan.dir) (edgeNext ew s) := by
  obtain ⟨hf, hw⟩ := (Bool.and_eq_true _ _).mp h
  exact State.motorStep_plan_of_wouldStep hw ▸ edgeNext_sameMotor_of_fire hr hf

theorem edgeNext_sameMotor_of_not_executesStep {ew : EventWord} {s : State} (hr : rstBit ew = false)
    (h : executesStep ew s = false) : sameMotor s (edgeNext ew s) := by
  cases hf : s.fireOutput ew with
  | false => exact edgeNext_sameMotor_of_not_fire hr hf
  | true =>
    have hw : s.wouldStep = false := by rwa [executesStep, hf] at h
    have hm := edgeNext_sameMotor_of_fire hr hf
    rwa [State.motorStep_plan_of_not_wouldStep hw] at hm

theorem edgeNext_total_steps {ew : EventWord} (s : State) (hr : rstBit ew = false) :
    (edgeNext ew s).total_steps = s.total_steps.plus (executesStep ew s).toNat := by
  cases h : executesStep ew s with
  | false =>
    obtain ⟨-, -, htotal⟩ := edgeNext_sameMotor_of_not_executesStep hr h
    exact htotal.trans s.total_steps.plus_zero.symm
  | true =>
    obtain ⟨-, -, htotal⟩ := edgeNext_sameMotor_of_executesStep hr h
    exact htotal

theorem runNext_total_steps {ws : List EventWord} (hws : ∀ ew ∈ ws, rstBit ew = false) (s : State) :
    (runNext ws s).total_steps = s.total_steps.plus (stepsExecuted ws s) := by
  induction ws generalizing s with
  | nil => exact s.total_steps.plus_zero.symm
  | cons ew ws ih =>
    obtain ⟨hr, hws⟩ := List.forall_mem_cons.1 hws
    rw [runNext_cons, ih hws, edgeNext_total_steps s hr, StepCounter.plus_plus, stepsExecuted_cons]

/-- Settles O30: over the run the counter adds up the executed steps, in its own width. -/
theorem totalStepsCountsExecutedSteps : Obligations.TotalStepsCountsExecutedSteps := by
  intro ws s hws
  have htotal := runNext_total_steps hws s
  refine ⟨runNext ws s, runEdges_eq ws s, ?_, ?_⟩
  · rw [htotal, StepCounter.plus_count]
  · rw [State.totalW, htotal, StepCounter.plus_width]

/-! ## The coils (R35 (e)) -/

theorem coilEntry_mem_patterns (d : Direction) (i : Fin Config.coilPhases) : (coilEntry d i).bits ∈ coilPatterns := by
  cases d <;> revert i <;> decide

/-- Settles O31: an executed step writes an entry of the table, and every other edge keeps the pattern. -/
theorem coilsStayEnergized : Obligations.CoilsStayEnergized := by
  refine fun ew s hr => ⟨edgeNext ew s, edge_eq ew s, ?_⟩
  cases h : executesStep ew s with
  | true =>
    obtain ⟨-, hcoil, -⟩ := edgeNext_sameMotor_of_executesStep hr h
    have hentry : (edgeNext ew s).coil.bits ∈ coilPatterns := hcoil ▸ coilEntry_mem_patterns _ _
    exact ⟨fun _ => (Bool.and_eq_true _ _).mp h, fun _ _ => hentry, fun _ => hentry⟩
  | false =>
    obtain ⟨-, hcoil, -⟩ := edgeNext_sameMotor_of_not_executesStep hr h
    have hno : ¬ (s.fireOutput ew = true ∧ s.wouldStep = true) := fun hyes =>
      Bool.eq_false_iff.1 h ((Bool.and_eq_true _ _).mpr hyes)
    exact ⟨fun hne => absurd hcoil hne, fun hf hw => absurd ⟨hf, hw⟩ hno, fun hs => hcoil ▸ hs⟩

/-! ## From reset to the first step (70_reset_and_hazards.md section 1) -/

theorem executesStep_of_not_wouldStep {s : State} (ew : EventWord) (h : s.wouldStep = false) : executesStep ew s = false := by
  rw [executesStep, h, Bool.and_false]

/-- The codes whose plan steps: the enabled ones without the first step angle above the half turn. -/
theorem State.wouldStep_iff_toNat (s : State) :
    s.wouldStep = true ↔ (512 ≤ s.angle_code.toNat ∧ s.angle_code.toNat ≤ 8192) ∨
      (8704 ≤ s.angle_code.toNat ∧ s.angle_code.toNat ≤ 15872) := by
  have hen : s.plan.en = true ↔ 512 ≤ s.angle_code.toNat ∧ s.angle_code.toNat ≤ 15872 := by
    rw [State.plan, planOf, planEnabled, Bool.and_eq_true, decide_eq_true_eq, decide_eq_true_eq]
  have hidle : (s.plan.en = true ∧ s.plan.stepCount = 0) ↔ 8193 ≤ s.angle_code.toNat ∧ s.angle_code.toNat ≤ 8703 :=
    planOf_en_and_stepCount_eq_zero_iff s.angle_code
  have hnot : (s.plan.en = true ∧ s.plan.stepCount ≠ 0) ↔
      s.plan.en = true ∧ ¬ (s.plan.en = true ∧ s.plan.stepCount = 0) := by tauto
  rw [s.wouldStep_iff, hnot, hidle, hen]
  omega

/-- A plan that steps only after the edge comes from the valid frame that the edge commits. -/
theorem commit_of_edgeNext_wouldStep {ew : EventWord} {s : State} (hr : rstBit ew = false) (hs : s.wouldStep = false)
    (ht : (edgeNext ew s).wouldStep = true) : pollEndBit ew = true ∧ s.busy = true ∧ s.k.val = 10 ∧ s.valid = true ∧
      (edgeNext ew s).angle_code = rawCode (rawField s.frame) := by
  refine (edgeNext_angle_code s hr).resolve_left fun hangle => ?_
  rw [State.wouldStep_iff_toNat, hangle, ← State.wouldStep_iff_toNat, hs] at ht
  cases ht

theorem State.resetWith_wouldStep (totalW : Nat) : (State.resetWith totalW).wouldStep = false := by
  rw [State.wouldStep, State.planEn, State.resetWith_plan]; rfl

/-- Along a run whose edges all start from a plan that does not step, the motor's registers hold. -/
theorem runNext_sameMotor {ws : List EventWord} (hws : ∀ ew ∈ ws, rstBit ew = false) {s : State}
    (h : ∀ n < ws.length, (runNext (ws.take n) s).wouldStep = false) : sameMotor s (runNext ws s) := by
  induction ws generalizing s with
  | nil => exact sameMotor_refl s
  | cons ew ws ih =>
    obtain ⟨hr, hws⟩ := List.forall_mem_cons.1 hws
    have hfirst : s.wouldStep = false := h 0 (Nat.succ_pos _)
    exact (edgeNext_sameMotor_of_not_executesStep hr (executesStep_of_not_wouldStep ew hfirst)).trans
      (ih hws fun n hn => h (n + 1) (Nat.succ_lt_succ hn))

theorem runNext_angle_code_of_no_pollEnd {ws : List EventWord} (hws : ∀ ew ∈ ws, rstBit ew = false ∧ pollEndBit ew = false)
    (s : State) : (runNext ws s).angle_code = s.angle_code := by
  induction ws generalizing s with
  | nil => rfl
  | cons ew ws ih =>
    obtain ⟨⟨hr, he⟩, hws⟩ := List.forall_mem_cons.1 hws
    rw [runNext_cons, ih hws]
    exact (edgeNext_angle_code s hr).resolve_right fun ⟨hp, _⟩ => Bool.eq_false_iff.1 he hp

/-- Settles O14: a motor step needs a stepping plan, a plan changes only with `angle_code`, and `angle_code` only at a commit. -/
theorem coilsStayOffUntilAFrameCommits : Obligations.CoilsStayOffUntilAFrameCommits := by
  refine ⟨fun ew s hcoil hstep htotal hw hr => ?edge, fun w => ⟨rfl, rfl, rfl, State.resetWith_wouldStep w⟩,
    fun w ws hws h => ⟨_, runEdges_eq ws _, ?run⟩, fun w ws hws => ⟨_, runEdges_eq ws _, ?noPollEnd⟩⟩
  case edge =>
    obtain ⟨hstep', hcoil', htotal'⟩ := edgeNext_sameMotor_of_not_executesStep hr (executesStep_of_not_wouldStep ew hw)
    refine ⟨edgeNext ew s, edge_eq ew s, hcoil' ▸ hcoil, hstep'.trans hstep, htotal' ▸ htotal,
      congrArg StepCounter.width htotal', fun ht => ?_⟩
    obtain ⟨hp, hb, hk, hv, hangle⟩ := commit_of_edgeNext_wouldStep hr hw ht
    rw [State.wouldStep_iff_toNat, hangle, rawCode, rawField_eq] at ht
    exact ⟨hp, hb, hk, s.valid_eq ▸ hv, ht⟩
  case run => exact runNext_sameMotor hws fun n hn => h n _ hn (runEdges_eq _ _)
  case noPollEnd =>
    have hangle (n : Nat) : (runNext (ws.take n) (State.resetWith w)).angle_code = 0 :=
      runNext_angle_code_of_no_pollEnd (fun ew hew => hws ew (List.mem_of_mem_take hew)) _
    have hall : (runNext ws (State.resetWith w)).angle_code = 0 := runNext_angle_code_of_no_pollEnd hws _
    have hrst (ew : EventWord) (hew : ew ∈ ws) : rstBit ew = false := by
      obtain ⟨hr, -⟩ := hws ew hew
      exact hr
    refine ⟨runNext_sameMotor hrst fun n _ => ?_, hall, ?_⟩
    · rw [State.wouldStep, State.planEn, State.budget, State.plan, hangle n]; rfl
    · rw [State.plan, hall]; rfl

/-! ## Interleaved ticks (41_sensor_link.md section 6) -/

/-- An edge leaves the parser as the edge of its word without the tick does. -/
theorem sameLink.edgeNext_pollOnly {s t : State} (h : sameLink s t) (ew : EventWord) :
    sameLink (Machine.edgeNext ew s) (Machine.edgeNext (pollOnly ew) t) := by
  cases hr : rstBit ew with
  | true =>
    rw [edgeNext_of_rst s hr, edgeNext_of_rst t ((rstBit_pollOnly ew).trans hr)]
    exact ⟨rfl, rfl, rfl, rfl, rfl⟩
  | false => exact h.edgeNext hr ((rstBit_pollOnly ew).trans hr) (linkWrites_pollOnly ew t).symm

/-- A word that carries no strobe raises none. -/
theorem getLsbD_eq_false_of_no_strobe {ew : EventWord} (h : ew &&& 0xF00#12 = 0) {j : Nat} (hj : (0xF00#12).getLsbD j = true) :
    ew.getLsbD j = false := by
  have hbit := congrArg (·.getLsbD j) h
  simpa [BitVec.getLsbD_and, hj] using hbit

theorem edgeNext_sameLink_of_no_strobe {ew : EventWord} (s : State) (h : ew &&& 0xF00#12 = 0) : sameLink s (edgeNext ew s) :=
  edgeNext_sameLink_of_not_poll s (getLsbD_eq_false_of_no_strobe h rfl) (getLsbD_eq_false_of_no_strobe h rfl)
    (getLsbD_eq_false_of_no_strobe h rfl)

theorem sameLink.runNext_filter {s t : State} (h : sameLink s t) (ws : List EventWord) :
    sameLink (runNext ws s) (runNext ((ws.map pollOnly).filter (fun ew => ew &&& 0xF00#12 ≠ 0)) t) := by
  induction ws generalizing s t with
  | nil => exact h
  | cons ew ws ih =>
    have hedge := h.edgeNext_pollOnly ew
    rw [runNext_cons, List.map_cons]
    by_cases hno : pollOnly ew &&& 0xF00#12 = 0
    · rw [List.filter_cons_of_neg (by simpa using hno)]
      exact ih (hedge.trans (edgeNext_sameLink_of_no_strobe t hno).symm)
    · rw [List.filter_cons_of_pos (by simpa using hno), runNext_cons]
      exact ih hedge

/-- Settles O42: each edge leaves the parser as its word without the tick does, and a word left without a strobe holds it. -/
theorem parserIgnoresInterleavedTicks : Obligations.ParserIgnoresInterleavedTicks := fun ws s =>
  ⟨_, _, runEdges_eq ws s, runEdges_eq _ s, (sameLink_refl s).runNext_filter ws⟩

end Sys2Proof.Machine
end

section
/-! SUPPORT and PROOFS. Frames (41_sensor_link.md): the frame buffer's contents and its canonical form, the code and the angle that a
frame stands for (R75, R119), the fused poll (R121), and the 22 edges of a frame cycle (R122). -/

namespace Sys2Proof.Machine

open Sys2Proof

/-! ## The code of a raw field (R75, R76) -/

/-- The code is `frame[2]` followed by bits 7 to 2 of `frame[3]`. -/
theorem rawCode_rawField (m : Memory) : rawCode (rawField m) = Memory.read m 2 ++ (Memory.read m 3).extractLsb' 2 6 := by
  rw [rawCode, rawField]
  generalize Memory.read m 2 = hi
  generalize Memory.read m 3 = lo
  apply BitVec.eq_of_getLsbD_eq
  intro j hj
  simp only [BitVec.getLsbD_extractLsb', BitVec.getLsbD_append]
  by_cases h : j < 6
  · simp [h, hj, show 2 + j < 8 by omega]
  · simp [h, hj, show ¬ 2 + j < 8 by omega, show 2 + j - 8 = j - 6 by omega]

theorem rawCode_rawField_toNat (m : Memory) :
    (rawCode (rawField m)).toNat = (((Memory.read m 2).toNat * 256 + (Memory.read m 3).toNat) / 4) % 2 ^ 14 := by
  have hraw : (rawField m).toNat = (Memory.read m 2).toNat * 256 + (Memory.read m 3).toNat := by
    rw [rawField, BitVec.toNat_append, ← Nat.shiftLeft_add_eq_or_of_lt (BitVec.isLt _), Nat.shiftLeft_eq]
  rw [rawCode, BitVec.extractLsb'_toNat, hraw, Nat.shiftRight_eq_div_pow]

/-- Settles O38: the committed code is the raw field in whole quarters, and a code is that many times the weight of R119. -/
theorem committedAngleInDegrees : Obligations.CommittedAngleInDegrees := by
  intro s hb hk hv
  have hangle : (s.commitAngle.endPoll 0).angle_code = rawCode (rawField s.frame) := by
    rw [State.endPoll_angle_code, State.commitAngle_angle_code, State.valid_eq, if_pos hv]
  refine ⟨_, exec_linkFinal hb hk, ?_, degreesOf_nonneg _, degreesOf_lt_360 _⟩
  rw [State.currentWindAngle, hangle, degreesOf, rawCode_rawField_toNat, Config.degPerCode]

/-! ## The bits that a commit does not read (93_implementation_defined.md U5) -/

/-- What a commit takes of a frame buffer: the validity bit, and the code where it is 1. -/
def committedCode (m : Memory) (held : AngleCode) : AngleCode := if rawValid (rawField m) then rawCode (rawField m) else held

theorem rawValid_rawField (m : Memory) : rawValid (rawField m) = (Memory.read m 3).getLsbD 0 :=
  State.valid_eq { State.reset with frame := m }

/-- Raw bit 1 and the other eight bytes play no part in it. -/
theorem committedCode_congr {m n : Memory} (h2 : Memory.read m 2 = Memory.read n 2)
    (h3 : Memory.read m 3 &&& 0xFD#8 = Memory.read n 3 &&& 0xFD#8) (held : AngleCode) :
    committedCode m held = committedCode n held := by
  have hvalid (b : Byte) : b.getLsbD 0 = (b &&& 0xFD#8).getLsbD 0 := by
    rw [BitVec.getLsbD_and]; exact (Bool.and_true _).symm
  have hcode (b : Byte) : b.extractLsb' 2 6 = (b &&& 0xFD#8).extractLsb' 2 6 := by
    rw [BitVec.extractLsb'_and]; exact BitVec.and_allOnes.symm
  rw [committedCode, committedCode, rawValid_rawField, rawValid_rawField, rawCode_rawField, rawCode_rawField,
    hvalid (Memory.read m 3), hcode (Memory.read m 3), h2, h3, ← hvalid, ← hcode]

theorem State.commitAngle_eq (s : State) : s.commitAngle = { s with angle_code := committedCode s.frame s.angle_code } := rfl

/-- Settles O39: where LINK.FINAL is selected both states commit the same code, and elsewhere both hold. -/
theorem unreadFrameBitsHaveNoEffect : Obligations.UnreadFrameBitsHaveNoEffect := by
  intro s m h2 h3
  cases hsel : s.selects .linkFinal with
  | false =>
    have hheld (t : State) (ht : t.selects .linkFinal = false) : exec .linkFinal t = .next t :=
      unselectedOperationHolds t .linkFinal ht nofun nofun nofun
    exact ⟨s, hheld s hsel, hheld { s with frame := m } hsel⟩
  | true =>
    simp only [State.selects, Bool.and_eq_true, decide_eq_true_eq] at hsel
    obtain ⟨hb, hk⟩ := hsel
    refine ⟨_, exec_linkFinal hb hk, (exec_linkFinal (s := { s with frame := m }) hb hk).trans ?_⟩
    rw [State.commitAngle_eq, State.commitAngle_eq, committedCode_congr h2 h3]; rfl

/-! ## The fused poll (R121) -/

theorem exec_pollEnd_eq_linkWrites (rx : Byte) {s : State} (hb : s.busy = true) :
    exec (.pollEnd rx) s = .next (linkWrites (0x1#4 ++ rx) s) := by
  have h := exec_pollEnd_variant (0x1#4 ++ rx) s hb (pollEndBit_pollEndWord rx)
  rw [rxByte_pollEndWord] at h
  rw [exec_pollEnd_eq_variant rx hb, h]

/-- The fused step is POLL_BEGIN and then what the parser writes at a POLL_END: the stored byte, or the commit. -/
theorem linkWrites_beginPoll {s : State} (hb : s.busy = false) (rx : Byte) :
    linkWrites (0x1#4 ++ rx) s.beginPoll = s.fusedPoll rx := by
  have hp : pollEndBit (0x1#4 ++ rx) = true := pollEndBit_pollEndWord rx
  by_cases hk : s.k.val < Config.frameLen
  · rw [linkWrites_of_store (s := s.beginPoll) hp rfl hk, rxByte_pollEndWord, State.fusedPoll, dif_pos hk]
    simp only [State.endPoll, State.storeByte, State.beginPoll, hb, if_neg hk.ne]
  · have hlast : s.k.val = Config.frameLen := le_antisymm (Nat.le_of_lt_succ s.k.isLt) (not_lt.1 hk)
    have h0 : s.k.val ≠ 0 := by simp [hlast]
    rw [linkWrites_of_commit (s := s.beginPoll) hp rfl hlast, State.fusedPoll, dif_neg hk]
    simp only [State.endPoll, State.commitAngle, State.beginPoll, hb, if_neg h0, if_pos hlast]
    rfl

/-- Settles O40: POLL_BEGIN opens the poll, and the POLL_END that follows closes it as the fused step does. -/
theorem pollIsBeginThenEnd : Obligations.PollIsBeginThenEnd := fun rx s hb =>
  ⟨s.beginPoll, exec_pollBegin hb, (exec_pollEnd_eq_linkWrites rx s.beginPoll_busy).trans
    (congrArg Host.Outcome.next (linkWrites_beginPoll hb rx))⟩

/-! ## A frame cycle (R122) -/

/-- The byte of the poll at position `i`: that of the frame, and 0x00 for `FIN`. -/
def frameByte (b : Fin 10 → Byte) (i : Nat) : Byte := if h : i < 10 then b ⟨i, h⟩ else 0x00#8

/-- The word of edge `n` of a frame cycle, from 0: POLL_BEGIN and POLL_END in turn. -/
def frameWord (b : Fin 10 → Byte) (n : Nat) : EventWord := if n % 2 = 0 then 0x200#12 else 0x1#4 ++ frameByte b (n / 2)

theorem stimulusWords_frameLines (b : Fin 10 → Byte) :
    stimulusWords (frameLines (List.ofFn b)) = (List.range 22).map (frameWord b) := rfl

theorem frameWord_of_even (b : Fin 10 → Byte) {n : Nat} (hn : n % 2 = 0) : frameWord b n = 0x200#12 := if_pos hn

theorem frameWord_of_odd (b : Fin 10 → Byte) {n : Nat} (hn : n % 2 = 1) : frameWord b n = 0x1#4 ++ frameByte b (n / 2) :=
  if_neg (by omega)

theorem rstBit_frameWord (b : Fin 10 → Byte) (n : Nat) : rstBit (frameWord b n) = false := by
  rcases Nat.mod_two_eq_zero_or_one n with hn | hn
  · rw [frameWord_of_even b hn]; rfl
  · rw [frameWord_of_odd b hn, rstBit_pollEndWord]

theorem tickBit_frameWord (b : Fin 10 → Byte) (n : Nat) : tickBit (frameWord b n) = false := by
  rcases Nat.mod_two_eq_zero_or_one n with hn | hn
  · rw [frameWord_of_even b hn]; rfl
  · rw [frameWord_of_odd b hn, tickBit_pollEndWord]

/-- The parser's registers after `n` edges of a frame cycle with the bytes `b` that began in `s`, before its last edge. -/
structure FrameProgress (b : Fin 10 → Byte) (s : State) (n : Nat) (u : State) : Prop where
  k : u.k.val = n / 2
  busy : u.busy = decide (n % 2 = 1)
  sel_n : 1 ≤ n → u.sel_n = decide (21 ≤ n)
  frame : ∀ i : Fin 10, i.val < n / 2 → Memory.read u.frame i = b i
  angle_code : u.angle_code = s.angle_code

theorem FrameProgress.zero (b : Fin 10 → Byte) {s : State} (hk : s.k = 0) (hb : s.busy = false) : FrameProgress b s 0 s where
  k := congrArg Fin.val hk
  busy := hb
  sel_n := nofun
  frame := nofun
  angle_code := rfl

theorem FrameProgress.of_sameLink {b : Fin 10 → Byte} {s u v : State} {n : Nat} (h : FrameProgress b s n u)
    (huv : sameLink u v) : FrameProgress b s n v := by
  obtain ⟨hk, hbusy, hsel, hframe, hangle⟩ := huv
  exact ⟨hk ▸ h.k, hbusy.trans h.busy, fun hn => hsel.trans (h.sel_n hn), hframe ▸ h.frame, hangle.trans h.angle_code⟩

/-- POLL_BEGIN selects the sensor at the first position and deselects it at the last. -/
theorem FrameProgress.beginPoll {b : Fin 10 → Byte} {s u : State} {n : Nat} (h : FrameProgress b s n u) (hn : n % 2 = 0)
    (hlt : n < 21) : FrameProgress b s (n + 1) u.beginPoll where
  k := by rw [State.beginPoll_k, h.k]; omega
  busy := by rw [State.beginPoll_busy, decide_eq_true (by omega)]
  sel_n _ := by
    rw [State.beginPoll_sel_n, h.k]
    split_ifs with h0 h10
    · exact (decide_eq_false (by omega)).symm
    · exact (decide_eq_true (by change n / 2 = 10 at h10; omega)).symm
    · rw [h.sel_n (by omega)]
      exact decide_eq_decide.2 (by change ¬ n / 2 = 10 at h10; omega)
  frame i hi := h.frame i (by omega)
  angle_code := h.angle_code

/-- POLL_END stores the next byte. -/
theorem FrameProgress.storeByte {b : Fin 10 → Byte} {s u : State} {n : Nat} (h : FrameProgress b s n u) (hn : n % 2 = 1)
    (hk : u.k.val < Config.frameLen) :
    FrameProgress b s (n + 1)
      ((u.storeByte ⟨u.k.val, hk⟩ (frameByte b (n / 2))).endPoll ⟨u.k.val + 1, Nat.succ_lt_succ hk⟩) where
  k := by change u.k.val + 1 = _; rw [h.k]; omega
  busy := by rw [State.endPoll_busy, decide_eq_false (by omega)]
  sel_n _ := by
    have hlt : n / 2 < 10 := h.k ▸ hk
    rw [State.endPoll_sel_n, State.storeByte_sel_n, h.sel_n (by omega)]
    exact decide_eq_decide.2 (by omega)
  frame i hi := by
    rw [State.endPoll_frame, State.storeByte_frame, Memory.read_write]
    split_ifs with hpos
    · have hval : i.val = n / 2 := (congrArg Fin.val hpos).trans h.k
      rw [← hval, frameByte, dif_pos i.isLt]
    · have hne : i.val ≠ n / 2 := fun hval => hpos (Fin.ext (hval.trans h.k.symm))
      exact h.frame i (by omega)
  angle_code := h.angle_code

theorem FrameProgress.edgeNext {b : Fin 10 → Byte} {s u : State} {n : Nat} (h : FrameProgress b s n u) (hn : n < 21) :
    FrameProgress b s (n + 1) (edgeNext (frameWord b n) u) := by
  refine FrameProgress.of_sameLink ?_ (edgeNext_sameLink_linkWrites u (rstBit_frameWord b n))
  rcases Nat.mod_two_eq_zero_or_one n with hpar | hpar
  · have hb : u.busy = false := h.busy.trans (decide_eq_false (by omega))
    rw [frameWord_of_even b hpar, linkWrites_of_pollBegin rfl hb]
    exact h.beginPoll hpar hn
  · have hb : u.busy = true := h.busy.trans (decide_eq_true hpar)
    have hk : u.k.val < Config.frameLen := by rw [h.k]; change n / 2 < 10; omega
    rw [frameWord_of_odd b hpar, linkWrites_of_store (pollEndBit_pollEndWord _) hb hk, rxByte_pollEndWord]
    exact h.storeByte hpar hk

theorem frameProgress_runNext (b : Fin 10 → Byte) {s : State} (hk : s.k = 0) (hb : s.busy = false) (n : Nat) (hn : n ≤ 21) :
    FrameProgress b s n (runNext ((List.range n).map (frameWord b)) s) := by
  induction n with
  | zero => exact .zero b hk hb
  | succ n ih =>
    rw [List.range_succ, List.map_append, runNext_append]
    exact (ih (by omega)).edgeNext hn

/-- The last edge of the cycle commits the frame. -/
theorem FrameProgress.commit {b : Fin 10 → Byte} {s u : State} (h : FrameProgress b s 21 u) :
    sameLink (u.commitAngle.endPoll 0) (Machine.edgeNext (frameWord b 21) u) := by
  have hcommit := edgeNext_sameLink_linkWrites u (rstBit_frameWord b 21)
  rwa [frameWord_of_odd b rfl, linkWrites_of_commit (pollEndBit_pollEndWord _) (h.busy.trans rfl) h.k] at hcommit

theorem runNext_of_not_tick {ws : List EventWord} (hws : ∀ ew ∈ ws, rstBit ew = false ∧ tickBit ew = false) (s : State) :
    (runNext ws s).gate_cnt = s.gate_cnt ∧ sameMotor s (runNext ws s) := by
  induction ws generalizing s with
  | nil => exact ⟨rfl, sameMotor_refl s⟩
  | cons ew ws ih =>
    obtain ⟨⟨hr, ht⟩, hws⟩ := List.forall_mem_cons.1 hws
    obtain ⟨hgate, hmotor⟩ := edgeNext_of_not_tick s hr ht
    obtain ⟨hgate', hmotor'⟩ := ih hws (edgeNext ew s)
    exact ⟨hgate'.trans hgate, hmotor.trans hmotor'⟩

/-- Settles O41: 21 edges of progress, and the commit; the polls of the cycle leave the gate and the motor alone. -/
theorem frameCycleCommitsItsBytes : Obligations.FrameCycleCommitsItsBytes := by
  intro b s hk hb
  rw [stimulusWords_frameLines]
  refine ⟨⟨_, runEdges_eq _ s, ?_⟩, fun n hlo hhi => ⟨_, runEdges_eq _ s, ?_⟩⟩
  · have hlast := frameProgress_runNext b hk hb 21 le_rfl
    obtain ⟨hk', hbusy', hsel', hframe', hangle'⟩ := hlast.commit
    obtain ⟨hgate, hmotor⟩ := runNext_of_not_tick (ws := (List.range 22).map (frameWord b))
      (List.forall_mem_map.2 fun n _ => ⟨rstBit_frameWord b n, tickBit_frameWord b n⟩) s
    have hbytes (i : Fin 10) : Memory.read (runNext ((List.range 21).map (frameWord b)) s).frame i = b i :=
      hlast.frame i i.isLt
    refine ⟨hk', hbusy', hsel'.trans (hlast.sel_n (by decide)), fun i => ?_, ?_, hgate, hmotor, runNext_stimulus _ s⟩
    · exact (congrArg (Memory.read · i) hframe').trans (hbytes i)
    · refine hangle'.trans ?_
      rw [State.endPoll_angle_code, State.commitAngle_angle_code, State.valid_eq, rawCode_rawField, hbytes, hbytes,
        hlast.angle_code]
  · have hprogress := frameProgress_runNext b hk hb n (by omega)
    rw [← List.map_take, List.take_range, min_eq_left hhi.le]
    exact ⟨hprogress.sel_n hlo, hprogress.angle_code⟩

/-! ## The canonical form of the frame buffer (the model's own, notes/assumptions/9.md) -/

theorem Memory.wfFrom_cons_iff {lo a : Nat} {c : Byte} {m : Memory} :
    Memory.wfFrom lo ((a, c) :: m) = true ↔
      lo ≤ a ∧ a < Config.frameLen ∧ c ≠ Memory.unlisted ∧ Memory.wfFrom (a + 1) m = true := by
  simp only [Memory.wfFrom, Bool.and_eq_true, decide_eq_true_eq, and_assoc]

theorem Memory.lookup_cons_self (a : Nat) (c : Byte) (m : Memory) : Memory.lookup ((a, c) :: m) a = c := if_pos rfl

theorem Memory.lookup_cons_of_ne {a i : Nat} (h : a ≠ i) (c : Byte) (m : Memory) :
    Memory.lookup ((a, c) :: m) i = Memory.lookup m i := if_neg h

/-- A canonical buffer lists nothing below its bound. -/
theorem Memory.lookup_of_lt_wfFrom {m : Memory} {lo i : Nat} (hm : Memory.wfFrom lo m = true) (hi : i < lo) :
    Memory.lookup m i = Memory.unlisted := by
  induction m generalizing lo with
  | nil => rfl
  | cons cell m ih =>
    obtain ⟨hlo, -, -, hrest⟩ := Memory.wfFrom_cons_iff.1 hm
    rw [Memory.lookup_cons_of_ne (by omega)]
    exact ih hrest (by omega)

/-- So the first cell of a canonical buffer shows at which index a buffer that reads alike begins. -/
theorem Memory.head_le_of_lookup_eq {a a' lo : Nat} {c c' : Byte} {m n : Memory} (hc : c ≠ Memory.unlisted)
    (hn : Memory.wfFrom lo ((a', c') :: n) = true)
    (h : Memory.lookup ((a, c) :: m) a = Memory.lookup ((a', c') :: n) a) : a' ≤ a := by
  obtain ⟨-, hlt, hc', hrest⟩ := Memory.wfFrom_cons_iff.1 hn
  by_contra hgt
  have hwf : Memory.wfFrom a' ((a', c') :: n) = true := Memory.wfFrom_cons_iff.2 ⟨le_rfl, hlt, hc', hrest⟩
  rw [Memory.lookup_cons_self, Memory.lookup_of_lt_wfFrom hwf (by omega)] at h
  exact hc h

theorem Memory.eq_of_lookup_eq {m n : Memory} {lo : Nat} (hm : Memory.wfFrom lo m = true) (hn : Memory.wfFrom lo n = true)
    (h : ∀ i < Config.frameLen, Memory.lookup m i = Memory.lookup n i) : m = n := by
  induction m generalizing lo n with
  | nil =>
    cases n with
    | nil => rfl
    | cons cell n =>
      obtain ⟨-, hlt, hc, -⟩ := Memory.wfFrom_cons_iff.1 hn
      have hcell := h cell.1 hlt
      rw [Memory.lookup_cons_self] at hcell
      exact absurd hcell.symm hc
  | cons cell m ih =>
    obtain ⟨a, c⟩ := cell
    obtain ⟨hlo, hlt, hc, hrest⟩ := Memory.wfFrom_cons_iff.1 hm
    cases n with
    | nil =>
      have hcell := h a hlt
      rw [Memory.lookup_cons_self] at hcell
      exact absurd hcell hc
    | cons cell' n =>
      obtain ⟨a', c'⟩ := cell'
      obtain ⟨hlo', hlt', hc', hrest'⟩ := Memory.wfFrom_cons_iff.1 hn
      obtain rfl : a = a' := le_antisymm (Memory.head_le_of_lookup_eq hc' hm (h a' hlt').symm)
        (Memory.head_le_of_lookup_eq hc hn (h a hlt))
      have hbyte := h a hlt
      rw [Memory.lookup_cons_self, Memory.lookup_cons_self] at hbyte
      have htail (i : Nat) (hi : i < Config.frameLen) : Memory.lookup m i = Memory.lookup n i := by
        by_cases hia : a = i
        · subst hia
          rw [Memory.lookup_of_lt_wfFrom hrest (Nat.lt_succ_self a), Memory.lookup_of_lt_wfFrom hrest' (Nat.lt_succ_self a)]
        · have hi' := h i hi
          rwa [Memory.lookup_cons_of_ne hia, Memory.lookup_cons_of_ne hia] at hi'
      rw [hbyte, ih hrest hrest' htail]

/-- Settles O58: cell by cell, the first cells of two canonical buffers that read alike are the same. -/
theorem equalFramesAreEqualData : Obligations.EqualFramesAreEqualData := fun _ _ hm hn h =>
  Memory.eq_of_lookup_eq hm hn fun i hi => h ⟨i, hi⟩

end Sys2Proof.Machine
end

section
/-! SUPPORT and PROOFS. The planner in codes and in degrees (42_step_planner.md sections 1 to 3): its counts, its equality with the
source's function on every code (R137), and the source's function on its own domain (R130, R142). -/

namespace Sys2Proof.Machine

open Sys2Proof

/-! ## The counts belong to the direction (R35 (f), R82) -/

/-- Settles O50: PLAN.CW has no counter-clockwise count, PLAN.CCW no clockwise one, and each range bounds its own. -/
theorem planCountsBelongToTheDirection : Obligations.PlanCountsBelongToTheDirection := by
  intro A
  rcases planOf_cases_toNat A with ⟨-, -, hp⟩ | ⟨⟨-, hhi⟩, -, hp⟩ | ⟨⟨hlo, hhi⟩, -, hp⟩ <;> rw [hp]
  · exact ⟨(absurd rfl ·), (absurd rfl ·), Nat.zero_le _, Nat.zero_le _⟩
  · have hcount : (cwCount A).toNat ≤ 16 := by rw [cwCount_toNat]; omega
    exact ⟨fun _ => ⟨rfl, rfl⟩, (absurd rfl ·), hcount, Nat.zero_le _⟩
  · have hcount : (ccwCount A).toNat ≤ 15 := by rw [ccwCount_toNat (by omega)]; omega
    exact ⟨(absurd rfl ·), fun _ => ⟨rfl, rfl⟩, Nat.zero_le _, hcount⟩

/-! ## A case of the planner on any code (the model's choice) -/

theorem ccwCount_eq_ofNat_mod (A : AngleCode) : ccwCount A = BitVec.ofNat 5 ((A.toNat + 8192) % 16384 / 512) := by
  have hsub : (A - BitVec.ofNat 14 Config.halfCode).toNat = (A.toNat + 8192) % 16384 := by
    rw [BitVec.toNat_sub, Nat.add_comm]; rfl
  apply BitVec.eq_of_toNat_eq
  rw [ccwCount, BitVec.toNat_setWidth, BitVec.toNat_ushiftRight, hsub, Nat.shiftRight_eq_div_pow, BitVec.toNat_ofNat]

/-- Settles O59: each case drives its rule's outputs, whose counts are the code's own bits. -/
theorem planCaseShowsItsOutputsOnAnyCode : Obligations.PlanCaseShowsItsOutputsOnAnyCode := by
  refine fun A s => ⟨exec_planNone A s, ?cw, ?ccw⟩
  case cw => rw [exec_planCw, ← cwCount_eq_ofNat]; rfl
  case ccw => rw [exec_planCcw, ← ccwCount_eq_ofNat_mod]; rfl

/-! ## The source's function, case by case (R130) -/

theorem stepAngle_eq : Config.stepAngle = 45 / 4 := rfl

theorem planOfDegrees_of_disabled {a : WindAngle} (h : ¬ (45 / 4 ≤ a.deg ∧ a.deg ≤ 1395 / 4)) :
    planOfDegrees a = ⟨false, none, 0, 0⟩ := by
  rw [planOfDegrees, if_neg (by rwa [stepAngle_eq, show (360 : ℚ) - 45 / 4 = 1395 / 4 by norm_num])]

theorem planOfDegrees_of_cw {a : WindAngle} (hlo : 45 / 4 ≤ a.deg) (hhi : a.deg ≤ 180) :
    planOfDegrees a = ⟨true, some .cw, ⌊a.deg / (45 / 4)⌋.toNat, 0⟩ := by
  rw [planOfDegrees, stepAngle_eq, if_pos ⟨hlo, by linarith⟩, if_pos hhi]

theorem planOfDegrees_of_ccw {a : WindAngle} (hlo : 180 < a.deg) (hhi : a.deg ≤ 1395 / 4) :
    planOfDegrees a = ⟨true, some .ccw, 0, ⌊(a.deg - 180) / (45 / 4)⌋.toNat⟩ := by
  rw [planOfDegrees, stepAngle_eq, if_pos ⟨by linarith, by linarith⟩, if_neg hlo.not_ge]

/-- The source's plan of an angle of its domain: disabled, clockwise, or counter-clockwise, with its range. -/
theorem planOfDegrees_cases (a : WindAngle) :
    (¬ (45 / 4 ≤ a.deg ∧ a.deg ≤ 1395 / 4) ∧ planOfDegrees a = ⟨false, none, 0, 0⟩) ∨
      ((45 / 4 ≤ a.deg ∧ a.deg ≤ 180) ∧ planOfDegrees a = ⟨true, some .cw, ⌊a.deg / (45 / 4)⌋.toNat, 0⟩) ∨
      ((180 < a.deg ∧ a.deg ≤ 1395 / 4) ∧
        planOfDegrees a = ⟨true, some .ccw, 0, ⌊(a.deg - 180) / (45 / 4)⌋.toNat⟩) := by
  by_cases hen : 45 / 4 ≤ a.deg ∧ a.deg ≤ 1395 / 4
  · obtain ⟨hlo, hhi⟩ := hen
    rcases le_or_gt a.deg 180 with hhalf | hhalf
    · exact .inr (.inl ⟨⟨hlo, hhalf⟩, planOfDegrees_of_cw hlo hhalf⟩)
    · exact .inr (.inr ⟨⟨hhalf, hhi⟩, planOfDegrees_of_ccw hhalf hhi⟩)
  · exact .inl ⟨hen, planOfDegrees_of_disabled hen⟩

/-- At most `n` whole step angles fit into at most `n` step angles. -/
theorem floor_stepAngles_le {x : ℚ} {n : ℕ} (h : x ≤ n * (45 / 4)) : ⌊x / (45 / 4)⌋.toNat ≤ n := by
  have hdiv : x / (45 / 4) ≤ n := (div_le_iff₀ (by norm_num)).2 h
  have hfloor : ⌊x / (45 / 4)⌋ ≤ n := Int.floor_le_iff.2 (by push_cast; linarith)
  exact Int.toNat_le.2 hfloor

theorem ofDegrees?_eq_some_iff {w : ℚ} {a : WindAngle} : WindAngle.ofDegrees? w = some a ↔ a.deg = w := by
  unfold WindAngle.ofDegrees?
  obtain ⟨d, h0, h360⟩ := a
  split
  · simp [eq_comm]
  · next h => exact iff_of_false nofun fun hd => h (hd ▸ ⟨h0, h360⟩)

/-- Settles O60: the domain by `WindAngle.ofDegrees?`, the answers by the source's three cases. -/
theorem degreePlannerTakesOnlyZeroTo360 : Obligations.DegreePlannerTakesOnlyZeroTo360 := by
  refine ⟨fun w => ⟨?admitted, fun ⟨h0, h360⟩ => ⟨⟨w, h0, h360⟩, ofDegrees?_eq_some_iff.2 rfl, rfl⟩⟩, fun w => ?refused,
    fun a => ?plan⟩
  case admitted =>
    rintro ⟨a, -, rfl⟩
    exact ⟨a.nonneg, a.lt_360⟩
  case refused => rw [WindAngle.ofDegrees?_eq_none, not_and_or, not_le, not_lt]
  case plan =>
    rcases planOfDegrees_cases a with ⟨hno, hp⟩ | ⟨⟨hlo, hhi⟩, hp⟩ | ⟨⟨hlo, hhi⟩, hp⟩ <;> rw [hp]
    · exact ⟨iff_of_false nofun hno, (absurd rfl ·), (absurd rfl ·), Nat.zero_le _, Nat.zero_le _⟩
    · exact ⟨iff_of_true rfl ⟨hlo, by linarith⟩, fun _ => ⟨rfl, rfl⟩, (absurd rfl ·),
        floor_stepAngles_le (by push_cast; linarith), Nat.zero_le _⟩
    · exact ⟨iff_of_true rfl ⟨by linarith, hhi⟩, (absurd rfl ·), fun _ => ⟨rfl, rfl⟩, Nat.zero_le _,
        floor_stepAngles_le (by push_cast; linarith)⟩

/-! ## The two planners on every code (R137) -/

/-- 512 codes are one step angle. -/
theorem degreesOf_div_stepAngle (A : AngleCode) : degreesOf A / (45 / 4) = (A.toNat : ℚ) / (512 : ℕ) := by
  rw [degreesOf, Config.degPerCode]; push_cast; ring

theorem floor_degreesOf_div_stepAngle (A : AngleCode) : ⌊degreesOf A / (45 / 4)⌋ = ((A.toNat / 512 : ℕ) : ℤ) := by
  rw [degreesOf_div_stepAngle, Rat.floor_natCast_div_natCast, Int.natCast_div]

/-- The half turn is sixteen step angles. -/
theorem floor_degreesOf_sub_div_stepAngle {A : AngleCode} (h : 8192 ≤ A.toNat) :
    ⌊(degreesOf A - 180) / (45 / 4)⌋ = (((A.toNat - 8192) / 512 : ℕ) : ℤ) := by
  have hhalf : (degreesOf A - 180) / (45 / 4) = ((A.toNat - 8192 : ℕ) : ℚ) / (512 : ℕ) := by
    rw [sub_div, degreesOf_div_stepAngle, Nat.cast_sub h]; push_cast; ring
  rw [hhalf, Rat.floor_natCast_div_natCast, Int.natCast_div]

theorem planOfDegrees_windAngleOf (A : AngleCode) : planOfDegrees (windAngleOf A) = (planOf A).asDegreePlan := by
  have hdeg : (windAngleOf A).deg = degreesOf A := rfl
  rcases planOf_cases_toNat A with ⟨hA, -, hp⟩ | ⟨⟨hlo, hhi⟩, -, hp⟩ | ⟨⟨hlo, hhi⟩, -, hp⟩ <;> rw [hp]
  · rw [planOfDegrees_of_disabled]
    · rfl
    · rw [hdeg, stepAngle_le_degreesOf_iff, degreesOf_le_topAngle_iff]; omega
  · rw [planOfDegrees_of_cw ((stepAngle_le_degreesOf_iff A).2 hlo) ((degreesOf_le_halfTurn_iff A).2 hhi), hdeg,
      floor_degreesOf_div_stepAngle, Int.toNat_natCast, ← cwCount_toNat]
    rfl
  · have hhalf : 180 < degreesOf A := not_le.1 (mt (degreesOf_le_halfTurn_iff A).1 (by omega))
    rw [planOfDegrees_of_ccw hhalf ((degreesOf_le_topAngle_iff A).2 hhi), hdeg,
      floor_degreesOf_sub_div_stepAngle (by omega), Int.toNat_natCast, ← ccwCount_toNat (by omega)]
    rfl

/-- Settles O49: each of the three ranges of codes is a range of degrees, and 512 codes are one step angle. -/
theorem codePlanEqualsDegreePlan : Obligations.CodePlanEqualsDegreePlan := by
  intro A w
  have hw : w = degreesOf A := by change (A.toNat : ℚ) * (45 / 2048) = _; rw [degreesOf, Config.degPerCode]; norm_num
  rw [hw]
  refine ⟨rfl, rfl, degreesOf_nonneg A, degreesOf_lt_360 A, planOfDegrees_windAngleOf A, ?_⟩
  rw [show (360 : ℚ) - 45 / 4 = 1395 / 4 by norm_num, stepAngle_le_degreesOf_iff, degreesOf_le_topAngle_iff, ← not_le,
    degreesOf_le_halfTurn_iff]
  rcases planOf_cases_toNat A with ⟨hA, -, hp⟩ | ⟨⟨hlo, hhi⟩, -, hp⟩ | ⟨⟨hlo, hhi⟩, -, hp⟩ <;> rw [hp]
  · exact ⟨iff_of_false nofun (by omega), nofun, nofun, nofun⟩
  · have hcount : ((cwCount A).toNat : ℤ) = ⌊degreesOf A / (45 / 4)⌋ := by
      rw [cwCount_toNat, floor_degreesOf_div_stepAngle]
    exact ⟨iff_of_true rfl ⟨hlo, by omega⟩, fun _ => iff_of_true rfl hhi, fun _ _ => ⟨hcount, rfl⟩,
      fun _ hno => absurd hhi hno⟩
  · have hcount : ((ccwCount A).toNat : ℤ) = ⌊(degreesOf A - 180) / (45 / 4)⌋ := by
      rw [ccwCount_toNat (by omega), floor_degreesOf_sub_div_stepAngle (by omega)]
    exact ⟨iff_of_true rfl ⟨by omega, hhi⟩, fun _ => iff_of_false nofun (by omega), fun _ hle => absurd hle (by omega),
      fun _ _ => ⟨hcount, rfl⟩⟩

end Sys2Proof.Machine
end

section
/-! SUPPORT and PROOFS. Repetition: the ticks of a gate with any threshold (40_tick_gate.md section 3), the coil steps of a constant
plan and of a reversal (43_motor_sequencer.md section 3), and the waits of a frame cycle (70_reset_and_hazards.md section 4). -/

namespace Sys2Proof.Machine

open Sys2Proof

/-! ## A tick gate alone (R105) -/

/-- The ordinals among the `n` raw ticks after number `at0` at which a gate with threshold `N` fires. -/
def firingTicks (N at0 n : Nat) : List Nat := ((List.range n).map (· + (at0 + 1))).filter (fun j => j % N = 0)

theorem firingTicks_succ (N at0 n : Nat) :
    firingTicks N at0 (n + 1) =
      if (at0 + 1) % N = 0 then (at0 + 1) :: firingTicks N (at0 + 1) n else firingTicks N (at0 + 1) n := by
  have hshift : ((· + (at0 + 1)) ∘ Nat.succ : Nat → Nat) = (· + (at0 + 1 + 1)) := by
    funext j; simp only [Function.comp_apply]; omega
  rw [firingTicks, List.range_succ_eq_map, List.map_cons, List.map_map, hshift, Nat.zero_add]
  split_ifs with h
  · rw [List.filter_cons_of_pos (by simpa using h)]; rfl
  · rw [List.filter_cons_of_neg (by simpa using h)]; rfl

theorem gateTick_fires_iff {N : Nat} {c : Fin N} {at0 : Nat} (hc : c.val = at0 % N) :
    (gateTick c).2 = true ↔ (at0 + 1) % N = 0 := by
  have hN : 0 < N := c.pos
  rw [← Nat.mod_add_mod, ← hc, gateTick_fires, decide_eq_true_eq]
  constructor
  · intro h; rw [h, Nat.mod_self]
  · intro h
    exact Nat.le_antisymm c.isLt (Nat.le_of_dvd (Nat.succ_pos _) (Nat.dvd_of_mod_eq_zero h))

/-- A gate that has counted `at0` ticks. -/
theorem gateRun_eq {N : Nat} (n at0 : Nat) {c : Fin N} (hc : c.val = at0 % N) :
    (gateRun n at0 c).1.val = (at0 + n) % N ∧ (gateRun n at0 c).2 = firingTicks N at0 n := by
  induction n generalizing at0 c with
  | zero => exact ⟨hc, rfl⟩
  | succ n ih =>
    have hnext : (gateTick c).1.val = (at0 + 1) % N := by rw [gateTick_val, hc, Nat.mod_add_mod]
    obtain ⟨hcnt, hlist⟩ := ih (at0 + 1) hnext
    rw [gateRun, firingTicks_succ]
    refine ⟨?_, ?_⟩
    · rw [hcnt]; congr 1; omega
    · simp only [hlist, gateTick_fires_iff hc]

/-- Settles O19: from 0 the gate has counted no tick. -/
theorem gateFiresOnEveryNthTick : Obligations.GateFiresOnEveryNthTick := by
  intro N hN n
  have h := gateRun_eq n 0 (c := ⟨0, hN⟩) (Nat.zero_mod N).symm
  rwa [Nat.zero_add] at h

/-! ## The coil tables walked (R80, R152) -/

/-- Settles O27: a constant plan takes a coil step each time, and the index passes 0, 1, 2, 3 whatever the direction. -/
theorem fourStepsWalkTheTable : Obligations.FourStepsWalkTheTable := by
  intro p s hen hb h0
  have hstep (t : State) : t.motorStep p = t.stepCoil p.dir := t.motorStep_of_stepCount_ne_zero hen hb
  have htotal (c : StepCounter) : c.next.next.next.next = c.plus 4 := by
    rw [c.next_eq_plus, StepCounter.next_plus, StepCounter.next_plus, StepCounter.next_plus]
  simp only [hstep, State.stepCoil_coil, State.stepCoil_coil_step, State.stepCoil_total_steps, h0]
  refine ⟨fun hd => ?cw, fun hd => ?ccw, rfl, htotal s.total_steps⟩
  case cw => rw [hd]; rfl
  case ccw => rw [hd]; rfl

/-- Settles O28: after two clockwise steps the index is 2, where the counter-clockwise table holds the pattern written last. -/
theorem reversalKeepsTheIndex : Obligations.ReversalKeepsTheIndex := by
  refine ⟨fun s => coilTable_ccw s.coil_step, fun s h0 => ?_⟩
  have hone : (s.stepCoil .cw).coil_step = 1 := by rw [State.stepCoil_coil_step, h0]; rfl
  have htwo : ((s.stepCoil .cw).stepCoil .cw).coil_step = 2 := by rw [State.stepCoil_coil_step, hone]; rfl
  refine ⟨?rewritten, rfl, ?next⟩
  case rewritten => rw [State.stepCoil_coil, htwo, State.stepCoil_coil, hone]; rfl
  case next => rw [State.stepCoil_coil, State.stepCoil_coil_step, htwo]; rfl

/-! ## The waits of a frame cycle (R211) -/

/-- Settles O45: the waits of the eleven polls, the two synchronization bytes first and the pause after the frame last. -/
theorem frameWaitsAddUp : Obligations.FrameWaitsAddUp := by
  have hwaits : (List.finRange (Config.frameLen + 1)).map (fun k => (pollDuty k).waitBefore + (pollDuty k).waitAfter)
      = [69 / 10 + 40, 0 + 50] ++ List.replicate 8 (0 + 40) ++ [1500 + 0] := rfl
  rw [Obligations.FrameWaitsAddUp, frameWaits, hwaits]
  norm_num

end Sys2Proof.Machine
end
